-- ==== Sys2Proof/Word.lean ====
section
/-! DEFINITION. The words of the machine: the byte that the serial side exchanges, the 32-bit register word, the 9-bit command word. -/

namespace Sys2Proof

/-- One frame of the serial side and one element of a queue (R3 item d, `FRAME_BITS` = 8). -/
abbrev Byte := BitVec 8

/-- The value of a register and the data of an access (`XLEN_REG` = 32, R5). -/
abbrev Word := BitVec 32

/-- `CMD = {W, OFFSET[7:0]}` (R61). -/
abbrev Command := BitVec 9

/-- A byte offset inside the window (R60). -/
abbrev Offset := BitVec 8

end Sys2Proof
end

