-- ==== Sys2Proof/Config.lean ====
section
/-! DEFINITION. What one instance of the controller fixes (R4: `CR2_WMASK`, `BASE`), what the outside sees of it (R9, D18), and the free value: the byte-transport's reply (R103, D8). -/

namespace Sys2Proof

/-- The two admitted write-masks of CR2; "No third value is admitted" (D1). -/
inductive Cr2Mask where
  | wide      -- 0x000000F0, the default
  | narrow    -- 0x00000040
deriving DecidableEq, Repr

/-- The open parameters of one instance (92_eei_decisions.md, "Open parameters"; R37: per instance). -/
structure Params where
  /-- `CR2_WMASK` (R15, D1). -/
  cr2Mask : Cr2Mask
  /-- `BASE`, the bus address of offset 0 (D3). -/
  base    : Nat
deriving DecidableEq, Repr

/-- What the outside can see besides the answer to a read (R9, R51, D18). A line or level that is driven
again to the level it has is no event (R120 property c). DESIGN CHOICE (log 7). -/
inductive Event where
  /-- One call `Transfer(out)` and its reply (R103). -/
  | transfer (out reply : Byte)
  /-- The four lines `CS_N[3:0]` took new levels, all together (R120, N22). -/
  | chipSelects (csN : BitVec 4)
  /-- The interrupt output took a new level (R150). -/
  | irqLevel (level : BitVec 2)
deriving DecidableEq, Repr

/-- The byte-transport's reply to `out` after everything the outside has seen so far: a free value, any of the
256 bytes, not the same for the same `out` at different times (R103, D8, log 3). -/
opaque Config.transport (seen : List Event) (out : Byte) : Byte

end Sys2Proof
end

