-- ==== Sys2Proof/Machine/Constants.lean ====
section
/-! DEFINITION. The named constants of R4 as fields of one record, with the one value the document states for each (N17: its literals are unaudited, so they stand here alone). `CR2_WMASK` and `BASE`, which the document leaves open, are fields of `Params`. -/

namespace Sys2Proof.Machine

/-- The constants of R4, in its order. -/
structure Constants where
  /-- `XLEN_REG`: bits of every register access. -/
  xlenReg     : Nat
  /-- `FIFO_DEPTH`: bytes of TXQ and of RXQ. -/
  fifoDepth   : Nat
  /-- `FRAME_BITS`: bits of one transfer unit. -/
  frameBits   : Nat
  /-- `N_CS`: chip-select outputs. -/
  nCs         : Nat
  /-- `IRQ_MAX`: the largest interrupt level. -/
  irqMax      : Nat
  /-- `WINDOW_SIZE`: bytes the block decodes. -/
  windowSize  : Nat
  /-- `N_REGS`: word indices with a register behind them. -/
  nRegs       : Nat
  /-- `OFF_CR1` to `OFF_CSCTRL`. -/
  offCr1      : Offset
  offCr2      : Offset
  offSr       : Offset
  offDr       : Offset
  offCsctrl   : Offset
  /-- `CR1_WMASK`. -/
  cr1Wmask    : Word
  /-- The two admitted values of `CR2_WMASK` (D1); `Params.cr2Mask` says which. -/
  cr2Wide     : Word
  cr2Narrow   : Word
  /-- `SR_W1C_MASK`: bits of SR cleared by writing 1. -/
  srW1cMask   : Word
  /-- `DR_WMASK`: bits of the write data a DR write uses. -/
  drWmask     : Word
  /-- `CSCTRL_WMASK`. -/
  csctrlWmask : Word
  /-- `CR1_RESET` to `CSCTRL_RESET`. -/
  cr1Reset    : Word
  cr2Reset    : Word
  srReset     : Word
  csctrlReset : Word
deriving DecidableEq, Repr

/-- The values of R4. -/
abbrev constants : Constants where
  xlenReg     := 32
  fifoDepth   := 8
  frameBits   := 8
  nCs         := 4
  irqMax      := 3
  windowSize  := 0x100
  nRegs       := 5
  offCr1      := 0x00
  offCr2      := 0x04
  offSr       := 0x08
  offDr       := 0x0C
  offCsctrl   := 0x10
  cr1Wmask    := 0x00000044
  cr2Wide     := 0x000000F0
  cr2Narrow   := 0x00000040
  srW1cMask   := 0x0000000C
  drWmask     := 0x000000FF
  csctrlWmask := 0x000000FF
  cr1Reset    := 0x00000000
  cr2Reset    := 0x00000000
  srReset     := 0x00000002
  csctrlReset := 0x00000000

/-! The names the other files use. -/

abbrev xlenReg : Nat := constants.xlenReg
abbrev fifoDepth : Nat := constants.fifoDepth
abbrev frameBits : Nat := constants.frameBits
abbrev nCs : Nat := constants.nCs
abbrev irqMax : Nat := constants.irqMax
abbrev windowSize : Nat := constants.windowSize
/-- `XLEN_REG / 8`: the bytes of every performed access (R44). -/
abbrev accessBytes : Nat := xlenReg / 8
/-- `N_WORDS = WINDOW_SIZE / 4`: the word indices of the window. -/
abbrev nWords : Nat := windowSize / 4
abbrev nRegs : Nat := constants.nRegs
abbrev offCr1 : Offset := constants.offCr1
abbrev offCr2 : Offset := constants.offCr2
abbrev offSr : Offset := constants.offSr
abbrev offDr : Offset := constants.offDr
abbrev offCsctrl : Offset := constants.offCsctrl
abbrev cr1Wmask : Word := constants.cr1Wmask
/-- `CR2_WMASK`, by the parameter of D1. -/
def cr2Wmask : Cr2Mask → Word
  | .wide => constants.cr2Wide
  | .narrow => constants.cr2Narrow
abbrev srW1cMask : Word := constants.srW1cMask
abbrev drWmask : Word := constants.drWmask
abbrev csctrlWmask : Word := constants.csctrlWmask
abbrev cr1Reset : Word := constants.cr1Reset
abbrev cr2Reset : Word := constants.cr2Reset
abbrev srReset : Word := constants.srReset
abbrev csctrlReset : Word := constants.csctrlReset

/-- The meaningful bits of SR, 3:0 (R16, R21). -/
abbrev srBits : Word := 0x0000000F
/-- R36: IRQ after reset. -/
abbrev irqReset : BitVec 2 := 0
/-- R36: CS_N after reset, all deasserted. -/
abbrev csNReset : BitVec 4 := 0b1111

end Sys2Proof.Machine
end

