-- ==== Sys2Proof/Machine/State.lean ====
section
/-! DEFINITION. The state of one controller instance as plain data (R10, R37), the reasons a step can stop, the state after reset (R36, R170). -/

namespace Sys2Proof.Machine

/-- The block has no fault: "No fatal/unrecoverable error exists; the peripheral never aborts or refuses further
access" (R140); 93_implementation_defined.md names no fault and no stuck behaviour. So this type has no
constructor: nobody raises one (log 15; safe, as nothing stops by it). -/
inductive Fault where
deriving DecidableEq, Repr

/-- Why an access has no step. All but the first stand in front of the block (R42, R45, R67; D2, D3). -/
inductive Refusal where
  /-- Raised by `exec` alone, for an instruction that has no meaning yet; safe: nothing can be proved of it. -/
  | notModelled (mnemonic : String)
  /-- Raised by `fetchInstr` for an address outside the window: not an access to this block (R42, D3); safe. -/
  | outsideWindow
  /-- Raised by `fetchInstr` for an access of other than 4 bytes (R45, D2); safe. -/
  | wrongSize
  /-- Raised by `fetchInstr` for an address that is not a multiple of 4 (R6, R45, D2); safe. -/
  | misaligned
  /-- Raised by `fetchInstr` when the command word matches no row, `OFFSET[1:0] != 0` (R67, D2); safe. -/
  | illegalCommand
deriving DecidableEq, Repr

/-- One access as the bus master makes it, at a bus address (R6: `MemRead(addr, n)`, `MemWrite(addr, n, v)`). The
write data of an access of another size than 4 is of no account: such an access is refused. -/
inductive Access where
  | read (addr size : Nat)
  | write (addr size : Nat) (wdata : Word)
deriving DecidableEq, Repr

/-- What the bus master's side can do to the block, one at a time (R8, R50, R171). -/
inductive BusEvent where
  | access (a : Access)
  | reset
deriving DecidableEq, Repr

/-- The state (R10), with the answer to the last access (R9), the parameters of the instance (R4), the inputs of the
steps to come (R8) and what the outside has seen (D18). -/
structure State where
  /-- R13. -/
  cr1     : Word
  /-- R14. -/
  cr2     : Word
  /-- R16. -/
  sr      : Word
  /-- R23. -/
  csctrl  : Word
  /-- R26: oldest byte first. -/
  txq     : List Byte
  /-- R27: oldest byte first. -/
  rxq     : List Byte
  /-- R30: the interrupt output. -/
  irq     : BitVec 2
  /-- R31: the chip-select outputs, 0 = asserted. -/
  csN     : BitVec 4
  /-- `RDATA` of the last access; nothing when it was a write (R60; log 8). -/
  rdata   : Option Word
  /-- `CR2_WMASK` and `BASE` (R4): no step changes them. -/
  params  : Params
  /-- The bus events not yet delivered, oldest first (R8, R50; log 1). -/
  pending : List BusEvent
  /-- Replies of the byte-transport laid down by the outside, in call order (R8, D8; log 3). -/
  replies : List Byte
  /-- What the outside has seen, oldest first (D18; log 7). -/
  trace   : List Event
deriving DecidableEq, Repr

/-- The parameters at their defaults: `CR2_WMASK` = 0xF0 (D1); `BASE` has none, 0 is DESIGN CHOICE (log 5). -/
def Params.reset : Params := { cr2Mask := .wide, base := 0 }

/-- The machine right after reset (R36, R170), with no input waiting and nothing seen yet (log 1, 3, 7, 8). -/
def State.reset : State where
  cr1     := cr1Reset
  cr2     := cr2Reset
  sr      := srReset
  csctrl  := csctrlReset
  txq     := []
  rxq     := []
  irq     := irqReset
  csN     := csNReset
  rdata   := none
  params  := Params.reset
  pending := []
  replies := []
  trace   := []

end Sys2Proof.Machine
end

