-- ==== Sys2Proof/Machine/Flags.lean ====
section
/-! DEFINITION. The flags of SR by bit position (R16), and the two functions of the registers that drive the outputs: the interrupt level (R150) and the chip-select lines (R120). -/

namespace Sys2Proof.Machine

/-- SR bit 0, receive-not-empty (R17). -/
abbrev rxne : Nat := 0
/-- SR bit 1, transmit-empty (R18). -/
abbrev txe : Nat := 1
/-- SR bit 2, overrun (R19). -/
abbrev ovr : Nat := 2
/-- SR bit 3, transmit overflow (R20). -/
abbrev txovf : Nat := 3
/-- `SR[k] <- 1`, the other bits left (R6). -/
def setBit (k : Nat) (w : Word) : Word := w ||| BitVec.twoPow 32 k

/-- `SR[k] <- 0`, the other bits left (R6). -/
def clearBit (k : Nat) (w : Word) : Word := w &&& ~~~(BitVec.twoPow 32 k)

/-- `irq_level(SR, CR2)`: three tests in this order, each overwriting the ones before (R150). -/
def irqLevel (sr cr2 : Word) : BitVec 2 :=
  let lvl0 : BitVec 2 := 0
  let lvl1 : BitVec 2 := if sr.getLsbD 1 && cr2.getLsbD 7 then 1 else lvl0      -- transmit-empty
  let lvl2 : BitVec 2 := if sr.getLsbD 0 && cr2.getLsbD 6 then 2 else lvl1      -- receive-not-empty
  if (sr.getLsbD 2 || sr.getLsbD 3) && cr2.getLsbD 5 then BitVec.ofNat 2 irqMax else lvl2   -- error

/-- `asserted[3:0]`: request AND enable, line by line, the `N_CS` requests below the `N_CS` enables (R120). -/
def csAsserted (csctrl : Word) : BitVec 4 := csctrl.extractLsb' 0 nCs &&& csctrl.extractLsb' nCs nCs

/-- `CS_N[3:0] = ~asserted[3:0]`: asserted is driven low (R120). -/
def csLines (csctrl : Word) : BitVec 4 := ~~~(csAsserted csctrl)

end Sys2Proof.Machine
end

