-- ==== Sys2Proof/Machine/Operands.lean ====
section
/-! DEFINITION. Operand forms: what each write takes of WDATA, and how a byte becomes read data (R63, R64). Bits not named here are ignored. -/

namespace Sys2Proof.Machine

/-- `WDATA & 0x44` (R81). -/
def cr1Operand (wdata : Word) : Word := wdata &&& cr1Wmask

/-- `WDATA & CR2_WMASK` (R83). -/
def cr2Operand (p : Params) (wdata : Word) : Word := wdata &&& cr2Wmask p.cr2Mask

/-- `SR & ~(WDATA & 0x0C)`: what WR_SR makes of SR (R91). -/
def srAfterWrite (wdata sr : Word) : Word := sr &&& ~~~(wdata &&& srW1cMask)

/-- `WDATA[7:0]`, the bits that `DR_WMASK` leaves (R4, R105). -/
def drOperand (wdata : Word) : Byte := (wdata &&& drWmask).setWidth frameBits

/-- `WDATA & 0xFF` (R122). -/
def csctrlOperand (wdata : Word) : Word := wdata &&& csctrlWmask

/-- `zext_32(byte)` (R64). -/
def zext32 (b : Byte) : Word := b.setWidth 32

end Sys2Proof.Machine
end

