-- ==== Sys2Proof/Machine/Ops.lean ====
section
/-! DEFINITION. The named operations the meanings are made of: register writes, the queue primitives (R100, R101), the output updates (R120, R150), Transfer (R103), Flush (R104), the end of an access, reset (R170). The block takes no exception and returns from none (R140, R153): what it has instead is `State.irqUpdate`, the last step of every access. -/

namespace Sys2Proof.Machine

/-- `q <- q ++ [b]` when `len(q) < 8` (R100). No rule pushes on a full queue; it is left as it is (I19, log 12). -/
def push (q : List Byte) (b : Byte) : List Byte := if q.length < fifoDepth then q ++ [b] else q

/-- The oldest byte and the rest, when `len(q) > 0` (R101). -/
def pop : List Byte → Option (Byte × List Byte)
  | [] => none
  | b :: q => some (b, q)

namespace State

/-! Writes to one field. -/

def setCr1 (s : State) (v : Word) : State := { s with cr1 := v }
def setCr2 (s : State) (v : Word) : State := { s with cr2 := v }
def setSr (s : State) (v : Word) : State := { s with sr := v }
def setCsctrl (s : State) (v : Word) : State := { s with csctrl := v }
def setTxq (s : State) (q : List Byte) : State := { s with txq := q }
def setRxq (s : State) (q : List Byte) : State := { s with rxq := q }
def setRdata (s : State) (r : Option Word) : State := { s with rdata := r }
def setPending (s : State) (p : List BusEvent) : State := { s with pending := p }

end State

/-- What the outside sees of the interrupt output being driven to `new` from `old`. -/
def irqEvents (old new : BitVec 2) : List Event := if new = old then [] else [.irqLevel new]

/-- What the outside sees of the chip-select lines being driven to `new` from `old`. -/
def csEvents (old new : BitVec 4) : List Event := if new = old then [] else [.chipSelects new]

/-- `IrqUpdate()`: `IRQ <- irq_level(SR, CR2)` (R150). -/
def State.irqUpdate (s : State) : State :=
  { s with irq := irqLevel s.sr s.cr2, trace := s.trace ++ irqEvents s.irq (irqLevel s.sr s.cr2) }

/-- `CsUpdate()`: `CS_N <- ~(CSCTRL[3:0] & CSCTRL[7:4])` (R120). -/
def State.csUpdate (s : State) : State :=
  { s with csN := csLines s.csctrl, trace := s.trace ++ csEvents s.csN (csLines s.csctrl) }

/-- The reply to `Transfer(out)` in this state: the outside's next one, else a free byte (R103, D8, log 3). -/
def State.reply (s : State) (out : Byte) : Byte :=
  match s.replies with
  | r :: _ => r
  | [] => Config.transport s.trace out

/-- The state after `Transfer(out)`: the reply is used up and the call has been seen (R103). -/
def State.afterTransfer (s : State) (out : Byte) : State :=
  { s with replies := s.replies.tail, trace := s.trace ++ [.transfer out (s.reply out)] }

/-- A reply byte arrives: queued when RXQ has room, else dropped with no flag (R104, R143). -/
def State.receive (s : State) (r : Byte) : State :=
  if s.rxq.length < fifoDepth then s.setRxq (push s.rxq r) else s

/-- One turn of the drain loop, after the pop: Transfer first, then the fullness test (R104 property b). -/
def State.exchange (s : State) (out : Byte) : State := (s.afterTransfer out).receive (s.reply out)

/-- The drain loop of `Flush()` over the bytes of TXQ, oldest first (R104). -/
def State.drain : List Byte → State → State
  | [], s => s
  | b :: q, s => State.drain q ((s.setTxq q).exchange b)

/-- `if len(TXQ) == 0: SR[1] <- 1` (R104). -/
def State.markTxe (s : State) : State :=
  if s.txq.length = 0 then s.setSr (setBit txe s.sr) else s

/-- `if len(RXQ) > 0: SR[0] <- 1  else: SR[0] <- 0` (R104). -/
def State.markRxne (s : State) : State :=
  if 0 < s.rxq.length then s.setSr (setBit rxne s.sr) else s.setSr (clearBit rxne s.sr)

/-- `Flush()` (R104). -/
def State.flush (s : State) : State := (State.drain s.txq s).markTxe.markRxne

/-- The end of a read access: RDATA is returned and the interrupt level is driven (R80, R150). -/
def State.endRead (s : State) (rdata : Word) : Host.Outcome State Fault Refusal :=
  .next (s.setRdata (some rdata)).irqUpdate

/-- The end of a write access: nothing is returned and the interrupt level is driven (R60, R81, R150). -/
def State.endWrite (s : State) : Host.Outcome State Fault Refusal :=
  .next (s.setRdata none).irqUpdate

/-- RESET (R170): registers and queues to their reset values, then both outputs. What the outside has laid down and seen
stays; parameters do not change (log 10). -/
def State.applyReset (s : State) : State :=
  let s1 := { s with cr1 := cr1Reset, cr2 := cr2Reset, sr := srReset, csctrl := csctrlReset, txq := [], rxq := [],
                     rdata := none }
  s1.csUpdate.irqUpdate

end Sys2Proof.Machine
end

