-- ==== Sys2Proof/Machine/ChipSelect.lean ====
section
/-! DEFINITION. The meanings of the accesses to CSCTRL (43_chip_select.md). -/

namespace Sys2Proof.Machine

/-- RD_CSCTRL: the register, not the lines (R121). -/
def execRdCsctrl (s : State) : Host.Outcome State Fault Refusal := s.endRead s.csctrl

/-- WR_CSCTRL: store, then drive the four lines, then the interrupt level (R122, R51). -/
def execWrCsctrl (wdata : Word) (s : State) : Host.Outcome State Fault Refusal :=
  (s.setCsctrl (csctrlOperand wdata)).csUpdate.endWrite

end Sys2Proof.Machine
end

