-- ==== Sys2Proof/Machine/ControlRegisters.lean ====
section
/-! DEFINITION. The meanings of the accesses to CR1 and CR2 (40_control_registers.md). -/

namespace Sys2Proof.Machine

/-- RD_CR1 (R80). -/
def execRdCr1 (s : State) : Host.Outcome State Fault Refusal := s.endRead s.cr1

/-- WR_CR1 (R81). -/
def execWrCr1 (wdata : Word) (s : State) : Host.Outcome State Fault Refusal :=
  (s.setCr1 (cr1Operand wdata)).endWrite

/-- RD_CR2 (R82). -/
def execRdCr2 (s : State) : Host.Outcome State Fault Refusal := s.endRead s.cr2

/-- WR_CR2 (R83). -/
def execWrCr2 (wdata : Word) (s : State) : Host.Outcome State Fault Refusal :=
  (s.setCr2 (cr2Operand s.params wdata)).endWrite

end Sys2Proof.Machine
end

