-- ==== Sys2Proof/Machine/DataRegister.lean ====
section
/-! DEFINITION. The meanings of the accesses to DR (42_data_register_fifo.md). -/

namespace Sys2Proof.Machine

/-- The part of RD_DR before the flag update: the read data, and the state with the byte taken or OVR set (R106). -/
def takeByte (s : State) : Word × State :=
  match pop s.rxq with
  | some (b, q) => (zext32 b, s.setRxq q)
  | none => (0, s.setSr (setBit ovr s.sr))

/-- `if len(RXQ) == 0: SR[0] <- 0` (R106). RD_DR never sets the flag (C8). -/
def clearRxneIfEmpty (s : State) : State :=
  if s.rxq.length = 0 then s.setSr (clearBit rxne s.sr) else s

/-- RD_DR (R106). -/
def execRdDr (s : State) : Host.Outcome State Fault Refusal :=
  (clearRxneIfEmpty (takeByte s).2).endRead (takeByte s).1

/-- WR_DR (R105): with room in TXQ the byte is pushed and the queue flushed, else TXOVF is set and the byte dropped. -/
def execWrDr (wdata : Word) (s : State) : Host.Outcome State Fault Refusal :=
  if s.txq.length < fifoDepth then
    (((s.setTxq (push s.txq (drOperand wdata))).setSr (clearBit txe s.sr)).flush).endWrite
  else (s.setSr (setBit txovf s.sr)).endWrite

end Sys2Proof.Machine
end

