-- ==== Sys2Proof/Machine/Reserved.lean ====
section
/-! DEFINITION. The meanings of the accesses to the reserved word indices (44_reserved_offsets.md): a read returns 0, a write is discarded, and neither depends on the offset. -/

namespace Sys2Proof.Machine

/-- RD_RSVD: `RDATA <- 0x00000000; IrqUpdate()` (R130). -/
def readReserved (s : State) : Host.Outcome State Fault Refusal := s.endRead 0

/-- WR_RSVD: WDATA is discarded, then `IrqUpdate()` (R131). -/
def writeReserved (s : State) : Host.Outcome State Fault Refusal := s.endWrite

/-- RD_RSVD_14 (R130). -/
def execRdRsvd14 (s : State) : Host.Outcome State Fault Refusal := readReserved s
/-- RD_RSVD_18_1C (R130). -/
def execRdRsvd18 (_offset : Offset) (s : State) : Host.Outcome State Fault Refusal := readReserved s
/-- RD_RSVD_20_3C (R130). -/
def execRdRsvd20 (_offset : Offset) (s : State) : Host.Outcome State Fault Refusal := readReserved s
/-- RD_RSVD_40_7C (R130). -/
def execRdRsvd40 (_offset : Offset) (s : State) : Host.Outcome State Fault Refusal := readReserved s
/-- RD_RSVD_80_FC (R130). -/
def execRdRsvd80 (_offset : Offset) (s : State) : Host.Outcome State Fault Refusal := readReserved s

/-- WR_RSVD_14 (R131). -/
def execWrRsvd14 (_wdata : Word) (s : State) : Host.Outcome State Fault Refusal := writeReserved s
/-- WR_RSVD_18_1C (R131). -/
def execWrRsvd18 (_offset : Offset) (_wdata : Word) (s : State) : Host.Outcome State Fault Refusal := writeReserved s
/-- WR_RSVD_20_3C (R131). -/
def execWrRsvd20 (_offset : Offset) (_wdata : Word) (s : State) : Host.Outcome State Fault Refusal := writeReserved s
/-- WR_RSVD_40_7C (R131). -/
def execWrRsvd40 (_offset : Offset) (_wdata : Word) (s : State) : Host.Outcome State Fault Refusal := writeReserved s
/-- WR_RSVD_80_FC (R131). -/
def execWrRsvd80 (_offset : Offset) (_wdata : Word) (s : State) : Host.Outcome State Fault Refusal := writeReserved s

end Sys2Proof.Machine
end

