-- ==== Sys2Proof/Machine/StatusRegister.lean ====
section
/-! DEFINITION. The meanings of the accesses to SR (41_status_register.md). -/

namespace Sys2Proof.Machine

/-- RD_SR: the live value, no side effect (R90). -/
def execRdSr (s : State) : Host.Outcome State Fault Refusal := s.endRead s.sr

/-- WR_SR: write 1 to clear OVR and TXOVF (R91). -/
def execWrSr (wdata : Word) (s : State) : Host.Outcome State Fault Refusal :=
  (s.setSr (srAfterWrite wdata s.sr)).endWrite

end Sys2Proof.Machine
end

