-- ==== Sys2Proof/Syntax.lean ====
section
/-! DEFINITION. The accesses of the controller, one constructor per row of spec/opcode_table.json (R65). -/

namespace Sys2Proof

/-- One register access, the block's unit of execution (R60, R65). A write carries its 32 bits of write data; a
reserved row that spans several offsets carries the offset (R130, R131). -/
inductive Instr where
  | rdCr1
  | wrCr1 (wdata : Word)
  | rdCr2
  | wrCr2 (wdata : Word)
  | rdSr
  | wrSr (wdata : Word)
  | rdDr
  | wrDr (wdata : Word)
  | rdCsctrl
  | wrCsctrl (wdata : Word)
  | rdRsvd14
  | rdRsvd18 (offset : Offset)
  | rdRsvd20 (offset : Offset)
  | rdRsvd40 (offset : Offset)
  | rdRsvd80 (offset : Offset)
  | wrRsvd14 (wdata : Word)
  | wrRsvd18 (offset : Offset) (wdata : Word)
  | wrRsvd20 (offset : Offset) (wdata : Word)
  | wrRsvd40 (offset : Offset) (wdata : Word)
  | wrRsvd80 (offset : Offset) (wdata : Word)
deriving DecidableEq, Repr

end Sys2Proof
end

