-- ==== Sys2Proof/Machine/Dispatch.lean ====
section
/-! DEFINITION. One arm per instruction: the call of its meaning. -/

namespace Sys2Proof.Machine

def exec (i : Instr) (s : State) : Host.Outcome State Fault Refusal :=
  match i with
  | .rdCr1 => Sys2Proof.Machine.execRdCr1 s
  | .wrCr1 w => Sys2Proof.Machine.execWrCr1 w s
  | .rdCr2 => Sys2Proof.Machine.execRdCr2 s
  | .wrCr2 w => Sys2Proof.Machine.execWrCr2 w s
  | .rdSr => Sys2Proof.Machine.execRdSr s
  | .wrSr w => Sys2Proof.Machine.execWrSr w s
  | .rdDr => Sys2Proof.Machine.execRdDr s
  | .wrDr w => Sys2Proof.Machine.execWrDr w s
  | .rdCsctrl => Sys2Proof.Machine.execRdCsctrl s
  | .wrCsctrl w => Sys2Proof.Machine.execWrCsctrl w s
  | .rdRsvd14 => Sys2Proof.Machine.execRdRsvd14 s
  | .rdRsvd18 o => Sys2Proof.Machine.execRdRsvd18 o s
  | .rdRsvd20 o => Sys2Proof.Machine.execRdRsvd20 o s
  | .rdRsvd40 o => Sys2Proof.Machine.execRdRsvd40 o s
  | .rdRsvd80 o => Sys2Proof.Machine.execRdRsvd80 o s
  | .wrRsvd14 w => Sys2Proof.Machine.execWrRsvd14 w s
  | .wrRsvd18 o w => Sys2Proof.Machine.execWrRsvd18 o w s
  | .wrRsvd20 o w => Sys2Proof.Machine.execWrRsvd20 o w s
  | .wrRsvd40 o w => Sys2Proof.Machine.execWrRsvd40 o w s
  | .wrRsvd80 o w => Sys2Proof.Machine.execWrRsvd80 o w s

end Sys2Proof.Machine
end

