-- ==== Sys2Proof/WellFormed.lean ====
section
/-! DEFINITION. Which instruction terms stand for an access: the offset of a reserved row lies in that row's range and is aligned (R44, R65). -/

namespace Sys2Proof

/-- `lo <= OFFSET <= hi` and `OFFSET[1:0] == 0` (the ranges of R65's mnemonics, the alignment of R44). -/
def offsetIn (lo hi : Nat) (offset : Offset) : Bool :=
  offset.toNat % 4 == 0 && decide (lo ≤ offset.toNat) && decide (offset.toNat ≤ hi)

/-- The operands are ones the encoding admits. -/
def Instr.wf : Instr → Bool
  | .rdCr1 => true
  | .wrCr1 _ => true
  | .rdCr2 => true
  | .wrCr2 _ => true
  | .rdSr => true
  | .wrSr _ => true
  | .rdDr => true
  | .wrDr _ => true
  | .rdCsctrl => true
  | .wrCsctrl _ => true
  | .rdRsvd14 => true
  | .rdRsvd18 o => offsetIn 0x18 0x1C o
  | .rdRsvd20 o => offsetIn 0x20 0x3C o
  | .rdRsvd40 o => offsetIn 0x40 0x7C o
  | .rdRsvd80 o => offsetIn 0x80 0xFC o
  | .wrRsvd14 _ => true
  | .wrRsvd18 o _ => offsetIn 0x18 0x1C o
  | .wrRsvd20 o _ => offsetIn 0x20 0x3C o
  | .wrRsvd40 o _ => offsetIn 0x40 0x7C o
  | .wrRsvd80 o _ => offsetIn 0x80 0xFC o

end Sys2Proof
end

