-- ==== Sys2Proof/Decode.lean ====
section
/-! DEFINITION. From the bits of an access to an instruction, and back (R60 to R68). The byte form of a command (two bytes for CMD, low byte first, then for a write the four lanes of WDATA) is this model's own, DESIGN CHOICE (log 11). -/

namespace Sys2Proof

/-- The rows of the operation map (R65). -/
inductive Op where
  | rdCr1 | wrCr1 | rdCr2 | wrCr2 | rdSr | wrSr | rdDr | wrDr | rdCsctrl | wrCsctrl
  | rdRsvd14 | rdRsvd18 | rdRsvd20 | rdRsvd40 | rdRsvd80
  | wrRsvd14 | wrRsvd18 | wrRsvd20 | wrRsvd40 | wrRsvd80
deriving DecidableEq, Repr

/-- One row: a command word `c` selects it when `(c & mask) == match` (R65). -/
structure Row where
  op        : Op
  matchBits : Command
  mask      : Command
deriving DecidableEq, Repr

/-- `OFFSET` of a command word (R61). -/
def Command.offset (c : Command) : Offset := c.extractLsb' 0 8

/-- `W` of a command word (R61). -/
def Command.isWrite (c : Command) : Bool := c.getLsbD 8

/-- `{W, OFFSET[7:0]}` (R61). -/
def commandOf (isWrite : Bool) (offset : Offset) : Command := BitVec.ofBool isWrite ++ offset

/-- The row of one direction at one register's offset: every bit of CMD is fixed (R65). -/
def registerRow (op : Op) (isWrite : Bool) (offset : Offset) : Row := ⟨op, commandOf isWrite offset, 0x1FF⟩

/-- The ten register rows of R65. -/
def registerRows : List Row :=
  [ registerRow .rdCr1 false Machine.offCr1, registerRow .wrCr1 true Machine.offCr1,
    registerRow .rdCr2 false Machine.offCr2, registerRow .wrCr2 true Machine.offCr2,
    registerRow .rdSr false Machine.offSr, registerRow .wrSr true Machine.offSr,
    registerRow .rdDr false Machine.offDr, registerRow .wrDr true Machine.offDr,
    registerRow .rdCsctrl false Machine.offCsctrl, registerRow .wrCsctrl true Machine.offCsctrl ]

/-- The ten reserved rows of R65. -/
def reservedRows : List Row :=
  [ ⟨.rdRsvd14, 0x014, 0x1FF⟩, ⟨.rdRsvd18, 0x018, 0x1FB⟩, ⟨.rdRsvd20, 0x020, 0x1E3⟩,
    ⟨.rdRsvd40, 0x040, 0x1C3⟩, ⟨.rdRsvd80, 0x080, 0x183⟩,
    ⟨.wrRsvd14, 0x114, 0x1FF⟩, ⟨.wrRsvd18, 0x118, 0x1FB⟩, ⟨.wrRsvd20, 0x120, 0x1E3⟩,
    ⟨.wrRsvd40, 0x140, 0x1C3⟩, ⟨.wrRsvd80, 0x180, 0x183⟩ ]

/-- The operation map (R65). -/
def operationMap : List Row := registerRows ++ reservedRows

/-- `(c & mask) == match`. -/
def Row.selects (r : Row) (c : Command) : Bool := c &&& r.mask == r.matchBits

/-- The operation a command word selects, if any. -/
def selectOp (c : Command) : Option Op := (operationMap.find? (·.selects c)).map (·.op)

/-- The instruction of an operation, from the offset and the write data of the access (R63). -/
def Op.instr : Op → Offset → Word → Instr
  | .rdCr1, _, _ => .rdCr1
  | .wrCr1, _, w => .wrCr1 w
  | .rdCr2, _, _ => .rdCr2
  | .wrCr2, _, w => .wrCr2 w
  | .rdSr, _, _ => .rdSr
  | .wrSr, _, w => .wrSr w
  | .rdDr, _, _ => .rdDr
  | .wrDr, _, w => .wrDr w
  | .rdCsctrl, _, _ => .rdCsctrl
  | .wrCsctrl, _, w => .wrCsctrl w
  | .rdRsvd14, _, _ => .rdRsvd14
  | .rdRsvd18, o, _ => .rdRsvd18 o
  | .rdRsvd20, o, _ => .rdRsvd20 o
  | .rdRsvd40, o, _ => .rdRsvd40 o
  | .rdRsvd80, o, _ => .rdRsvd80 o
  | .wrRsvd14, _, w => .wrRsvd14 w
  | .wrRsvd18, o, w => .wrRsvd18 o w
  | .wrRsvd20, o, w => .wrRsvd20 o w
  | .wrRsvd40, o, w => .wrRsvd40 o w
  | .wrRsvd80, o, w => .wrRsvd80 o w

/-- Why the decoder answers no instruction. -/
inductive DecodeError where
  /-- The bytes end before the access does. -/
  | truncated
  /-- Bits above the nine of CMD are set (R61: CMD has nine bits). -/
  | notACommand
  /-- The command word matches no row of the map: it is illegal (R67). -/
  | illegalCommand
deriving DecidableEq, Repr

/-- Decode of an access as the block sees it; the write data never takes part (R62). -/
def decodeAccess (c : Command) (wdata : Word) : Except DecodeError Instr :=
  match selectOp c with
  | some op => .ok (op.instr (Command.offset c) wdata)
  | none => .error .illegalCommand

/-- The byte lanes of a 32-bit value, lowest address first: little-endian (R43). -/
def lanes (w : Word) : List Byte :=
  [w.extractLsb' 0 8, w.extractLsb' 8 8, w.extractLsb' 16 8, w.extractLsb' 24 8]

/-- The 32-bit value of four byte lanes, `b0` at the lowest address (R43). -/
def ofLanes (b0 b1 b2 b3 : Byte) : Word :=
  b0.setWidth 32 ||| b1.setWidth 32 <<< 8 ||| b2.setWidth 32 <<< 16 ||| b3.setWidth 32 <<< 24

/-- Decode of a byte string: the instruction and the bytes left over. -/
def decode : List Byte → Except DecodeError (Instr × List Byte)
  | lo :: hi :: rest =>
    if hi.toNat < 2 then
      match hi.getLsbD 0, rest with
      | false, rest => (decodeAccess (commandOf false lo) 0).map (·, rest)
      | true, b0 :: b1 :: b2 :: b3 :: rest =>
        (decodeAccess (commandOf true lo) (ofLanes b0 b1 b2 b3)).map (·, rest)
      | true, _ => .error .truncated
    else .error .notACommand
  | _ => .error .truncated

/-- Whether the access is a write (`W`, R62). -/
def Instr.isWrite : Instr → Bool
  | .rdCr1 | .rdCr2 | .rdSr | .rdDr | .rdCsctrl => false
  | .rdRsvd14 | .rdRsvd18 _ | .rdRsvd20 _ | .rdRsvd40 _ | .rdRsvd80 _ => false
  | .wrCr1 _ | .wrCr2 _ | .wrSr _ | .wrDr _ | .wrCsctrl _ => true
  | .wrRsvd14 _ | .wrRsvd18 _ _ | .wrRsvd20 _ _ | .wrRsvd40 _ _ | .wrRsvd80 _ _ => true

/-- `OFFSET` of the access (R62). -/
def Instr.offset : Instr → Offset
  | .rdCr1 | .wrCr1 _ => Machine.offCr1
  | .rdCr2 | .wrCr2 _ => Machine.offCr2
  | .rdSr | .wrSr _ => Machine.offSr
  | .rdDr | .wrDr _ => Machine.offDr
  | .rdCsctrl | .wrCsctrl _ => Machine.offCsctrl
  | .rdRsvd14 | .wrRsvd14 _ => 0x14
  | .rdRsvd18 o | .rdRsvd20 o | .rdRsvd40 o | .rdRsvd80 o => o
  | .wrRsvd18 o _ | .wrRsvd20 o _ | .wrRsvd40 o _ | .wrRsvd80 o _ => o

/-- `WDATA` of the access; 0 for a read, which carries none (R60). -/
def Instr.wdata : Instr → Word
  | .rdCr1 | .rdCr2 | .rdSr | .rdDr | .rdCsctrl => 0
  | .rdRsvd14 | .rdRsvd18 _ | .rdRsvd20 _ | .rdRsvd40 _ | .rdRsvd80 _ => 0
  | .wrCr1 w | .wrCr2 w | .wrSr w | .wrDr w | .wrCsctrl w => w
  | .wrRsvd14 w | .wrRsvd18 _ w | .wrRsvd20 _ w | .wrRsvd40 _ w | .wrRsvd80 _ w => w

/-- The row of the operation map an instruction belongs to. -/
def Instr.op : Instr → Op
  | .rdCr1 => .rdCr1
  | .wrCr1 _ => .wrCr1
  | .rdCr2 => .rdCr2
  | .wrCr2 _ => .wrCr2
  | .rdSr => .rdSr
  | .wrSr _ => .wrSr
  | .rdDr => .rdDr
  | .wrDr _ => .wrDr
  | .rdCsctrl => .rdCsctrl
  | .wrCsctrl _ => .wrCsctrl
  | .rdRsvd14 => .rdRsvd14
  | .rdRsvd18 _ => .rdRsvd18
  | .rdRsvd20 _ => .rdRsvd20
  | .rdRsvd40 _ => .rdRsvd40
  | .rdRsvd80 _ => .rdRsvd80
  | .wrRsvd14 _ => .wrRsvd14
  | .wrRsvd18 _ _ => .wrRsvd18
  | .wrRsvd20 _ _ => .wrRsvd20
  | .wrRsvd40 _ _ => .wrRsvd40
  | .wrRsvd80 _ _ => .wrRsvd80

/-- The command word of an instruction (R61, R62). -/
def Instr.command (i : Instr) : Command := commandOf i.isWrite i.offset

/-- The bytes of an instruction: CMD, then for a write the lanes of WDATA (R69's order; log 11). -/
def encode (i : Instr) : List Byte :=
  [i.offset, (BitVec.ofBool i.isWrite).setWidth 8] ++ if i.isWrite then lanes i.wdata else []

/-- Bits `hi+7 .. hi` of a number, as a byte. -/
def byteAt (w pos : Nat) : Byte := BitVec.ofNat 8 (w >>> pos)

/-- What the decoder reads from an instruction whose low `nbits` bits are `w` and whose other bits are 0: CMD is in
bits 15:0, WDATA in bits 47:16 (log 11). -/
def decodeTableWord (nbits w : Nat) : Option Instr :=
  let v := w % 2 ^ nbits
  match decode [byteAt v 0, byteAt v 8, byteAt v 16, byteAt v 24, byteAt v 32, byteAt v 40] with
  | .ok (i, _) => some i
  | .error _ => none

end Sys2Proof
end

