-- ==== Sys2Proof/Machine/Fetch.lean ====
section
/-! DEFINITION. From a bus access to the instruction the block performs, or the reason it never reaches the block (R6, R42, R44, R45, R62, R67); and a table word as the bus access that stands for it. -/

namespace Sys2Proof.Machine

def Access.addr : Access → Nat
  | .read a _ => a
  | .write a _ _ => a

/-- The bytes the bus master asks to move (R6: `n`). -/
def Access.size : Access → Nat
  | .read _ n => n
  | .write _ n _ => n

def Access.isWrite : Access → Bool
  | .read _ _ => false
  | .write _ _ _ => true

def Access.wdata : Access → Word
  | .read _ _ => 0
  | .write _ _ w => w

/-- The command word of an access inside the window: `W` and the offset from `BASE` (R61). -/
def Access.command (p : Params) (a : Access) : Command := commandOf a.isWrite (BitVec.ofNat 8 (a.addr - p.base))

/-- The instruction an access is, when `BASE <= addr < BASE + 0x100`, `n == 4` and `addr[1:0] == 0` (R6) and the command
word is in the map (R62, R67); otherwise the access is refused (R42, R45; D2, D3; log 6). -/
def fetchInstr (p : Params) (a : Access) : Except Refusal Instr :=
  if a.addr < p.base ∨ p.base + windowSize ≤ a.addr then .error .outsideWindow
  else if a.size ≠ accessBytes then .error .wrongSize
  else if a.addr % 4 ≠ 0 then .error .misaligned
  else match decodeAccess (a.command p) a.wdata with
    | .ok i => .ok i
    | .error _ => .error .illegalCommand

/-- The bus access of an instruction given as a number: CMD in bits 8:0, WDATA in bits 47:16 (log 11). Bits 15:9, which no
command word has, put the address beyond the window. -/
def accessOfTableWord (p : Params) (nbits w : Nat) : Access :=
  let v := w % 2 ^ nbits
  let addr := p.base + v % 256 + windowSize * (v / 512 % 128)
  if v / 256 % 2 = 1 then .write addr accessBytes (BitVec.ofNat 32 (v / 65536)) else .read addr accessBytes

end Sys2Proof.Machine
end

