-- ==== Sys2Proof/Machine/Step.lean ====
section
/-! DEFINITION. One step of the machine: the next bus event is performed whole (R8, R49, R50). -/

namespace Sys2Proof.Machine

/-- One step. With no bus event waiting the block does nothing (R8, R12; log 2). Reset happens between accesses (R171).
An access that reaches the block is performed by `exec`; one that does not is refused (R45). -/
def step (s : State) : Host.Outcome State Fault Refusal :=
  match s.pending with
  | [] => .next s
  | .reset :: rest => .next (s.setPending rest).applyReset
  | .access a :: rest =>
    match fetchInstr s.params a with
    | .ok i => exec i (s.setPending rest)
    | .error r => .refused r

/-- `s` with an access put before all others: the next step performs it. A program is the bus master's sequence of accesses and
comes from outside the machine (log 1). -/
def State.withFetchWord (s : State) (nbits w : Nat) : State :=
  s.setPending (.access (accessOfTableWord s.params nbits w) :: s.pending)

end Sys2Proof.Machine
end

