-- ==== Sys2Proof/Safety.lean ====
section
/-! DEFINITION. What statements about runs are said in: the invariants of 10_state.md section 9, the reachable states, and names for what an access leaves unchanged. -/

namespace Sys2Proof.Machine

/-- Every stored register holds a legal value (R13, R14, R15, R16, R23, R25) and no queue is over its capacity (R26, R27). -/
abbrev State.Legal (s : State) : Prop :=
  s.cr1 &&& ~~~cr1Wmask = 0 ∧ s.cr2 &&& ~~~(cr2Wmask s.params.cr2Mask) = 0 ∧ s.sr &&& ~~~srBits = 0 ∧
  s.csctrl &&& ~~~csctrlWmask = 0 ∧ s.txq.length ≤ fifoDepth ∧ s.rxq.length ≤ fifoDepth

/-- Both outputs are the functions of the registers that the rules give (R30, R31). -/
abbrev State.OutputsAgree (s : State) : Prop := s.irq = irqLevel s.sr s.cr2 ∧ s.csN = csLines s.csctrl

/-- R34: TXQ empty, TXE (bit 1) set, RXNE (bit 0) telling whether RXQ holds a byte, TXOVF (bit 3) clear. -/
abbrev State.Boundary (s : State) : Prop :=
  s.txq = [] ∧ s.sr.getLsbD 1 = true ∧ s.sr.getLsbD 0 = decide (0 < s.rxq.length) ∧ s.sr.getLsbD 3 = false

/-- The states of runs from reset: any parameters, any bus events, any replies (R34). -/
inductive Reachable : State → Prop
  | boot (p : Params) (events : List BusEvent) (replies : List Byte) :
      Reachable { State.reset with params := p, pending := events, replies := replies }
  | step {s t : State} : Reachable s → step s = .next t → Reachable t

/-- The four stored registers are the same. -/
abbrev SameRegisters (s t : State) : Prop :=
  t.cr1 = s.cr1 ∧ t.cr2 = s.cr2 ∧ t.sr = s.sr ∧ t.csctrl = s.csctrl

/-- Both queues are the same. -/
abbrev SameQueues (s t : State) : Prop := t.txq = s.txq ∧ t.rxq = s.rxq

/-- The parameters and the bus events to come are the same: no access touches them. -/
abbrev SameBus (s t : State) : Prop := t.params = s.params ∧ t.pending = s.pending

/-- The bytes handed to the byte-transport, in order (R9). -/
def sentBytes : List Event → List Byte
  | [] => []
  | .transfer out _ :: es => out :: sentBytes es
  | .chipSelects _ :: es => sentBytes es
  | .irqLevel _ :: es => sentBytes es

/-- No transfer took place and the chip-select lines kept their levels: the outside saw at most the interrupt level change, and the
level is the function of the registers (R150). -/
abbrev OnlyIrqDriven (s t : State) : Prop :=
  t.csN = s.csN ∧ t.replies = s.replies ∧ t.irq = irqLevel t.sr t.cr2 ∧ t.trace = s.trace ++ irqEvents s.irq t.irq

/-- When the level was already the function of the registers and they did not change, it is the same and nothing was seen. -/
abbrev IrqKept (s t : State) : Prop := s.irq = irqLevel s.sr s.cr2 → t.irq = s.irq ∧ t.trace = s.trace

end Sys2Proof.Machine
end

