-- ==== Sys2Proof/Certificates/Slice0/Obligations.lean ====
section
/-! DEFINITION. The statements about the controller, for the provers. Each docstring names the rules of spec/ it formalises; where a clause rests on a decision of the spec or on a choice of the model, the docstring says so. -/

open Sys2Proof Sys2Proof.Machine

/-! Encoding -/

/-- Command words written out bit by bit from R65 and vectors V30, and two with write data, are read as what they stand for.
A sanity statement. The place of WDATA in the number is the model's own (log 11). -/
def Obligations.TableWordsDecodeToTheirRows : Prop :=
  decodeTableWord 16 0b000000000 = some .rdCr1 ∧
  decodeTableWord 16 0b000001000 = some .rdSr ∧
  decodeTableWord 16 0b000001100 = some .rdDr ∧
  decodeTableWord 16 0b000010100 = some .rdRsvd14 ∧
  decodeTableWord 16 0b000011100 = some (.rdRsvd18 0x1C) ∧
  decodeTableWord 16 0b000111100 = some (.rdRsvd20 0x3C) ∧
  decodeTableWord 16 0b001111100 = some (.rdRsvd40 0x7C) ∧
  decodeTableWord 16 0b011111100 = some (.rdRsvd80 0xFC) ∧
  decodeTableWord 16 0b111111100 = some (.wrRsvd80 0xFC 0) ∧
  decodeTableWord 48 0x0000005A010C = some (.wrDr 0x5A) ∧
  decodeTableWord 48 0xFFFFFF110110 = some (.wrCsctrl 0xFFFFFF11) ∧
  decodeTableWord 16 0b000000001 = none ∧ decodeTableWord 16 0b100001110 = none ∧ decodeTableWord 16 0b111111111 = none

/-- R65: the map has twenty rows, and a command word matches exactly one of them when its two low bits are 0 and none otherwise. -/
def Obligations.PatternsSelectExactlyOneRow : Prop :=
  operationMap.length = 20 ∧
  ∀ c : Command, (operationMap.filter (·.selects c)).length = if c.extractLsb' 0 2 = 0 then 1 else 0

/-- R62: an aligned access is decoded by IDX and W alone, and the write data never takes part. Which reserved row an index falls
in is R65's ranges. -/
def Obligations.DecodeFollowsIndexTable : Prop :=
  ∀ (idx : BitVec 6) (wdata : Word),
    let offset : Offset := idx ++ 0#2
    let rd := decodeAccess (0#1 ++ idx ++ 0#2) wdata
    let wr := decodeAccess (1#1 ++ idx ++ 0#2) wdata
    (idx = 0 → rd = .ok .rdCr1 ∧ wr = .ok (.wrCr1 wdata)) ∧
    (idx = 1 → rd = .ok .rdCr2 ∧ wr = .ok (.wrCr2 wdata)) ∧
    (idx = 2 → rd = .ok .rdSr ∧ wr = .ok (.wrSr wdata)) ∧
    (idx = 3 → rd = .ok .rdDr ∧ wr = .ok (.wrDr wdata)) ∧
    (idx = 4 → rd = .ok .rdCsctrl ∧ wr = .ok (.wrCsctrl wdata)) ∧
    (idx = 5 → rd = .ok .rdRsvd14 ∧ wr = .ok (.wrRsvd14 wdata)) ∧
    (6 ≤ idx.toNat ∧ idx.toNat ≤ 7 → rd = .ok (.rdRsvd18 offset) ∧ wr = .ok (.wrRsvd18 offset wdata)) ∧
    (8 ≤ idx.toNat ∧ idx.toNat ≤ 15 → rd = .ok (.rdRsvd20 offset) ∧ wr = .ok (.wrRsvd20 offset wdata)) ∧
    (16 ≤ idx.toNat ∧ idx.toNat ≤ 31 → rd = .ok (.rdRsvd40 offset) ∧ wr = .ok (.wrRsvd40 offset wdata)) ∧
    (32 ≤ idx.toNat → rd = .ok (.rdRsvd80 offset) ∧ wr = .ok (.wrRsvd80 offset wdata))

/-- R67 (decision D2): a command word with `BYTE != 0` is illegal, whatever the write data. -/
def Obligations.MisalignedCommandsHaveNoInstruction : Prop :=
  ∀ (c : Command) (wdata : Word), c.extractLsb' 0 2 ≠ 0 → decodeAccess c wdata = .error .illegalCommand

/-- Decoding what the encoder writes gives the instruction back, whatever bytes follow. The byte form is the model's (log 11). -/
def Obligations.DecodeOfEncodeIsTheInstruction : Prop :=
  ∀ (i : Instr) (rest : List Byte), i.wf = true → decode (encode i ++ rest) = .ok (i, rest)

/-- Each byte string has one meaning: what the decoder reads is well-formed and its bytes are its encoding (log 11). -/
def Obligations.DecodedBytesAreTheEncoding : Prop :=
  ∀ (bytes rest : List Byte) (i : Instr), decode bytes = .ok (i, rest) → i.wf = true ∧ bytes = encode i ++ rest

/-- R43: the byte lanes of a 32-bit value, lowest address first, and back. -/
def Obligations.ByteLanesAreLittleEndian : Prop :=
  ∀ w : Word, ∃ b0 b1 b2 b3 : Byte, lanes w = [b0, b1, b2, b3] ∧ ofLanes b0 b1 b2 b3 = w ∧
    ∀ k, k < 8 → b0.getLsbD k = w.getLsbD k ∧ b1.getLsbD k = w.getLsbD (8 + k) ∧
      b2.getLsbD k = w.getLsbD (16 + k) ∧ b3.getLsbD k = w.getLsbD (24 + k)

/-! The step -/

/-- A step performs the next access whole: it is `exec` of the access's instruction, with the access taken off the list (R50; the
list is the model's, log 1). -/
def Obligations.StepPerformsTheNextAccess : Prop :=
  ∀ (s : State) (a : Access) (rest : List BusEvent) (i : Instr),
    s.pending = .access a :: rest → fetchInstr s.params a = .ok i → step s = exec i { s with pending := rest }

/-- R6, R62: a 4-byte access at `BASE` plus the offset of a well-formed instruction, in its direction and with its write data,
makes the step run that instruction. `BASE` is a multiple of 4, as R6 and R44 together need. -/
def Obligations.StepRunsTheEncodedAccess : Prop :=
  ∀ (s : State) (i : Instr) (rest : List BusEvent), i.wf = true → s.params.base % 4 = 0 →
    s.pending = .access (if i.isWrite then .write (s.params.base + i.offset.toNat) 4 i.wdata
                         else .read (s.params.base + i.offset.toNat) 4) :: rest →
    step s = exec i { s with pending := rest }

/-- An instruction laid where the step takes its next one from is run by the very next step (log 1, log 11). -/
def Obligations.FetchWordRunsTheDecodedInstruction : Prop :=
  ∀ (s : State) (nbits w : Nat) (i : Instr), s.params.base % 4 = 0 → decodeTableWord nbits w = some i →
    step (s.withFetchWord nbits w) = exec i s

/-- R44, R140: every aligned 4-byte access inside the window is performed and completes; a read returns data and a write none. -/
def Obligations.WindowAccessesComplete : Prop :=
  ∀ (s : State) (a : Access) (rest : List BusEvent), s.pending = .access a :: rest → s.params.base % 4 = 0 →
    s.params.base ≤ a.addr → a.addr < s.params.base + 0x100 → a.addr % 4 = 0 → a.size = 4 →
    ∃ t, step s = .next t ∧ t.pending = rest ∧ t.params = s.params ∧ t.rdata.isSome = !a.isWrite

/-- R42, R45, R67 (decisions D2, D3): an access outside the window, of another size, or misaligned has no step; misaligned is the bus
address (R6) or the offset (R44), which differ when `BASE` is not a multiple of 4. That the step answers a refusal, its name, and which one
is named when several apply (outside, then size, then address, then offset) are the model's own choice (log 6). -/
def Obligations.AccessesOutsideTheRulesAreRefused : Prop :=
  ∀ (s : State) (a : Access) (rest : List BusEvent), s.pending = .access a :: rest →
    let inside := s.params.base ≤ a.addr ∧ a.addr < s.params.base + 0x100
    (¬ inside → step s = .refused .outsideWindow) ∧
    (inside → a.size ≠ 4 → step s = .refused .wrongSize) ∧
    (inside → a.size = 4 → a.addr % 4 ≠ 0 → step s = .refused .misaligned) ∧
    (inside → a.size = 4 → a.addr % 4 = 0 → (a.addr - s.params.base) % 4 ≠ 0 → step s = .refused .illegalCommand)

/-- R8, R12: with nothing asked of it the controller does nothing. That a step is then taken at all is the model's (log 2). -/
def Obligations.StepWithoutEventsIdles : Prop :=
  ∀ s : State, s.pending = [] → step s = .next s

/-! Reset -/

/-- R170 (decisions D5, D6, D7): a reset event puts every element at its value of R36, from any state, calls the transport zero
times, and leaves the parameters and the inputs to come. RDATA is then nothing, the model's choice (log 8, log 10). -/
def Obligations.ResetEventRestoresEveryElement : Prop :=
  ∀ (s : State) (rest : List BusEvent), s.pending = .reset :: rest →
    ∃ t, step s = .next t ∧ t.cr1 = 0 ∧ t.cr2 = 0 ∧ t.sr = 2 ∧ t.csctrl = 0 ∧ t.txq = [] ∧ t.rxq = [] ∧
      t.irq = 0 ∧ t.csN = 0b1111 ∧ t.rdata = none ∧ t.params = s.params ∧ t.pending = rest ∧ t.replies = s.replies ∧
      t.trace = s.trace ++ csEvents s.csN 0b1111 ++ irqEvents s.irq 0

/-- R36: the values after reset. Those of the two outputs are decisions D5 and D6; the parameters are D1's default and log 5. -/
def Obligations.ResetStateHoldsTheTabulatedValues : Prop :=
  State.reset.cr1 = 0 ∧ State.reset.cr2 = 0 ∧ State.reset.sr = 0x00000002 ∧ State.reset.csctrl = 0 ∧
  State.reset.txq = [] ∧ State.reset.rxq = [] ∧ State.reset.irq = 0 ∧ State.reset.csN = 0b1111 ∧
  State.reset.params = { cr2Mask := .wide, base := 0 }

/-- The state after reset meets the three invariants that every step keeps. -/
def Obligations.ResetStateMeetsTheInvariants : Prop :=
  State.reset.Legal ∧ State.reset.OutputsAgree ∧ State.reset.Boundary

/-- R172: what a bus master reads right after reset, and that the DR read latches OVR; V42-1: not 0x0C (C5). -/
def Obligations.AnswersRightAfterReset : Prop :=
  ∀ o : Offset, ∃ a b c d e f g j h k,
    exec .rdCr1 State.reset = .next a ∧ a.rdata = some 0 ∧ exec .rdCr2 State.reset = .next b ∧ b.rdata = some 0 ∧
    exec .rdSr State.reset = .next c ∧ c.rdata = some 0x00000002 ∧
    exec .rdCsctrl State.reset = .next d ∧ d.rdata = some 0 ∧
    exec .rdDr State.reset = .next e ∧ e.rdata = some 0 ∧ e.sr = 0x00000006 ∧
    exec .rdRsvd14 State.reset = .next f ∧ f.rdata = some 0 ∧ exec (.rdRsvd18 o) State.reset = .next g ∧ g.rdata = some 0 ∧
    exec (.rdRsvd20 o) State.reset = .next j ∧ j.rdata = some 0 ∧
    exec (.rdRsvd40 o) State.reset = .next h ∧ h.rdata = some 0 ∧ exec (.rdRsvd80 o) State.reset = .next k ∧ k.rdata = some 0

/-! One access each: its result, its completion and its frame -/

/-- R80: RD_CR1 (command word 0x000) returns the stored value and changes nothing; the level is driven to the value it already had. -/
def Obligations.ReadCr1ReturnsTheStoredValue : Prop :=
  (∀ v : Word, decodeAccess 0x000 v = .ok .rdCr1) ∧
  ∀ s : State, ∃ t, exec .rdCr1 s = .next t ∧ t.rdata = some s.cr1 ∧
    SameRegisters s t ∧ SameQueues s t ∧ SameBus s t ∧ OnlyIrqDriven s t ∧ IrqKept s t ∧
    (s.Legal → s.cr1 = 0x00 ∨ s.cr1 = 0x04 ∨ s.cr1 = 0x40 ∨ s.cr1 = 0x44)

/-- R81: WR_CR1 replaces CR1 by `WDATA & 0x44` and changes nothing else. That nothing else depends on the written bits is decision
D14 (log 13). -/
def Obligations.WriteCr1StoresTheMaskedValue : Prop :=
  ∀ (w : Word) (s : State), ∃ t, exec (.wrCr1 w) s = .next t ∧ t.cr1 = w &&& 0x00000044 ∧ t.rdata = none ∧
    t.cr2 = s.cr2 ∧ t.sr = s.sr ∧ t.csctrl = s.csctrl ∧ SameQueues s t ∧ SameBus s t ∧ OnlyIrqDriven s t ∧ IrqKept s t

/-- R82: RD_CR2 (command word 0x004) returns the stored value and changes nothing; a legal CR2 has no bit outside its mask. -/
def Obligations.ReadCr2ReturnsTheStoredValue : Prop :=
  (∀ v : Word, decodeAccess 0x004 v = .ok .rdCr2) ∧
  ∀ s : State, ∃ t, exec .rdCr2 s = .next t ∧ t.rdata = some s.cr2 ∧
    SameRegisters s t ∧ SameQueues s t ∧ SameBus s t ∧ OnlyIrqDriven s t ∧ IrqKept s t ∧
    (s.Legal → s.cr2 &&& ~~~(match s.params.cr2Mask with | .wide => 0x000000F0#32 | .narrow => 0x00000040#32) = 0)

/-- R83: WR_CR2 replaces CR2 by `WDATA & CR2_WMASK`, for both admitted masks (decision D1), and the level sees the new enables in
this same access. -/
def Obligations.WriteCr2StoresTheMaskedValue : Prop :=
  ∀ (w : Word) (s : State), ∃ t, exec (.wrCr2 w) s = .next t ∧
    t.cr2 = w &&& (match s.params.cr2Mask with | .wide => 0x000000F0#32 | .narrow => 0x00000040#32) ∧ t.rdata = none ∧
    t.cr1 = s.cr1 ∧ t.sr = s.sr ∧ t.csctrl = s.csctrl ∧ SameQueues s t ∧ SameBus s t ∧ OnlyIrqDriven s t

/-- R90: RD_SR (command word 0x008) returns the live value and clears nothing. -/
def Obligations.ReadSrReturnsTheLiveValue : Prop :=
  (∀ v : Word, decodeAccess 0x008 v = .ok .rdSr) ∧
  ∀ s : State, ∃ t, exec .rdSr s = .next t ∧ t.rdata = some s.sr ∧
    SameRegisters s t ∧ SameQueues s t ∧ SameBus s t ∧ OnlyIrqDriven s t ∧ IrqKept s t ∧
    (s.Legal → s.sr &&& 0xFFFFFFF0 = 0) ∧ (s.Boundary → s.sr.getLsbD 1 = true ∧ s.sr.getLsbD 3 = false)

/-- R91: WR_SR (command word 0x108) clears OVR where WDATA bit 2 is 1 and TXOVF where bit 3 is 1, and changes no other bit. -/
def Obligations.WriteSrClearsTheLatchedFlags : Prop :=
  (∀ v : Word, decodeAccess 0x108 v = .ok (.wrSr v)) ∧
  ∀ (w : Word) (s : State), ∃ t, exec (.wrSr w) s = .next t ∧ t.sr = s.sr &&& ~~~(w &&& 0x0000000C) ∧
    t.sr.getLsbD 2 = (s.sr.getLsbD 2 && !w.getLsbD 2) ∧ t.sr.getLsbD 3 = (s.sr.getLsbD 3 && !w.getLsbD 3) ∧
    (∀ k, k ≠ 2 → k ≠ 3 → t.sr.getLsbD k = s.sr.getLsbD k) ∧ t.rdata = none ∧
    t.cr1 = s.cr1 ∧ t.cr2 = s.cr2 ∧ t.csctrl = s.csctrl ∧ SameQueues s t ∧ SameBus s t ∧ OnlyIrqDriven s t

/-- R106: RD_DR (command word 0x00C) takes the oldest byte of RXQ, zero-extended, or returns 0 and latches OVR; RXNE is cleared when RXQ is then empty and
is never set. -/
def Obligations.ReadDrTakesTheOldestByteOrLatchesOvr : Prop :=
  (∀ v : Word, decodeAccess 0x00C v = .ok .rdDr) ∧
  ∀ s : State,
    (∀ (b : Byte) (q : List Byte), s.rxq = b :: q → ∃ t, exec .rdDr s = .next t ∧ t.rdata = some (b.setWidth 32) ∧ t.rxq = q ∧
      t.sr.getLsbD 0 = (s.sr.getLsbD 0 && decide (q ≠ [])) ∧ (∀ k, k ≠ 0 → t.sr.getLsbD k = s.sr.getLsbD k) ∧
      t.txq = s.txq ∧ t.cr1 = s.cr1 ∧ t.cr2 = s.cr2 ∧ t.csctrl = s.csctrl ∧ SameBus s t ∧ OnlyIrqDriven s t) ∧
    (s.rxq = [] → ∃ t, exec .rdDr s = .next t ∧ t.rdata = some 0 ∧ t.rxq = [] ∧
      t.sr.getLsbD 2 = true ∧ t.sr.getLsbD 0 = false ∧ (∀ k, k ≠ 0 → k ≠ 2 → t.sr.getLsbD k = s.sr.getLsbD k) ∧
      t.txq = s.txq ∧ t.cr1 = s.cr1 ∧ t.cr2 = s.cr2 ∧ t.csctrl = s.csctrl ∧ SameBus s t ∧ OnlyIrqDriven s t)

/-- R105 with R104, TXQ not full: the queued bytes and then `WDATA[7:0]` are handed over in order, one reply `rs[k]` each, whatever the
replies are; RXQ takes the first ones it has room for and the others are lost; TXQ ends empty, TXE and RXNE set. Replies laid down by
the outside are used first (log 3). -/
def Obligations.WriteDrTransmitsTheQueueAndTheByte : Prop :=
  ∀ (w : Word) (s : State), s.txq.length < 8 → ∃ (t : State) (rs : List Byte), exec (.wrDr w) s = .next t ∧
    rs.length = s.txq.length + 1 ∧ rs.take s.replies.length = s.replies.take rs.length ∧
    t.replies = s.replies.drop rs.length ∧ t.txq = [] ∧ t.rxq = s.rxq ++ rs.take (8 - s.rxq.length) ∧
    t.sr.getLsbD 0 = true ∧ t.sr.getLsbD 1 = true ∧ (∀ k, 2 ≤ k → t.sr.getLsbD k = s.sr.getLsbD k) ∧ t.rdata = none ∧
    t.cr1 = s.cr1 ∧ t.cr2 = s.cr2 ∧ t.csctrl = s.csctrl ∧ t.csN = s.csN ∧ SameBus s t ∧
    t.irq = irqLevel t.sr t.cr2 ∧
    t.trace = s.trace ++ List.zipWith Event.transfer (s.txq ++ [w.extractLsb' 0 8]) rs ++ irqEvents s.irq t.irq

/-- R105, R142, TXQ full: TXOVF is set, the byte is dropped, nothing is transmitted. (A TXQ over its capacity, in no legal
state, counts as full: log 14.) -/
def Obligations.WriteDrToAFullQueueLatchesTxovf : Prop :=
  ∀ (w : Word) (s : State), 8 ≤ s.txq.length → ∃ t, exec (.wrDr w) s = .next t ∧
    t.sr.getLsbD 3 = true ∧ (∀ k, k ≠ 3 → t.sr.getLsbD k = s.sr.getLsbD k) ∧ t.rdata = none ∧
    t.cr1 = s.cr1 ∧ t.cr2 = s.cr2 ∧ t.csctrl = s.csctrl ∧ SameQueues s t ∧ SameBus s t ∧ OnlyIrqDriven s t

/-- R121: RD_CSCTRL (command word 0x010) returns the register and changes nothing; the lines keep their levels. -/
def Obligations.ReadCsctrlReturnsTheStoredValue : Prop :=
  (∀ v : Word, decodeAccess 0x010 v = .ok .rdCsctrl) ∧
  ∀ s : State, ∃ t, exec .rdCsctrl s = .next t ∧ t.rdata = some s.csctrl ∧
    SameRegisters s t ∧ SameQueues s t ∧ SameBus s t ∧ OnlyIrqDriven s t ∧ IrqKept s t ∧
    (s.Legal → s.csctrl &&& 0xFFFFFF00 = 0)

/-- R122: WR_CSCTRL (command word 0x110) replaces CSCTRL by `WDATA & 0xFF`, drives line `i` low exactly when bits `i` and `i + 4` are both set, then
drives the level, which it does not change. -/
def Obligations.WriteCsctrlDrivesTheLines : Prop :=
  (∀ v : Word, decodeAccess 0x110 v = .ok (.wrCsctrl v)) ∧
  ∀ (w : Word) (s : State), ∃ t, exec (.wrCsctrl w) s = .next t ∧ t.csctrl = w &&& 0x000000FF ∧
    (∀ i, i < 4 → t.csN.getLsbD i = !(w.getLsbD i && w.getLsbD (i + 4))) ∧ t.rdata = none ∧
    t.cr1 = s.cr1 ∧ t.cr2 = s.cr2 ∧ t.sr = s.sr ∧ SameQueues s t ∧ SameBus s t ∧ t.replies = s.replies ∧
    t.irq = irqLevel t.sr t.cr2 ∧ t.trace = s.trace ++ csEvents s.csN t.csN ++ irqEvents s.irq t.irq ∧
    (s.irq = irqLevel s.sr s.cr2 → t.irq = s.irq)

/-- R130 (decision D4 for the level update): a read of a reserved offset returns 0 and changes nothing, in any state and at any
offset. -/
def Obligations.ReservedReadsReturnZero : Prop :=
  ∀ (s : State) (o : Offset) (i : Instr),
    i = .rdRsvd14 ∨ i = .rdRsvd18 o ∨ i = .rdRsvd20 o ∨ i = .rdRsvd40 o ∨ i = .rdRsvd80 o →
    ∃ t, exec i s = .next t ∧ t.rdata = some 0 ∧
      SameRegisters s t ∧ SameQueues s t ∧ SameBus s t ∧ OnlyIrqDriven s t ∧ IrqKept s t

/-- R131 (decision D4 for the level update): a write to a reserved offset leaves no trace. -/
def Obligations.ReservedWritesHaveNoEffect : Prop :=
  ∀ (s : State) (o : Offset) (w : Word) (i : Instr),
    i = .wrRsvd14 w ∨ i = .wrRsvd18 o w ∨ i = .wrRsvd20 o w ∨ i = .wrRsvd40 o w ∨ i = .wrRsvd80 o w →
    ∃ t, exec i s = .next t ∧ t.rdata = none ∧
      SameRegisters s t ∧ SameQueues s t ∧ SameBus s t ∧ OnlyIrqDriven s t ∧ IrqKept s t

/-! The queues, the transfer engine, the outputs -/

/-- R100: a push on a queue with room appends at the tail. -/
def Obligations.PushAppendsAtTheTail : Prop :=
  ∀ (q : List Byte) (b : Byte), q.length < 8 → push q b = q ++ [b] ∧ (push q b).length = q.length + 1

/-- R101: a pop takes the oldest byte and keeps the order of the rest. -/
def Obligations.PopTakesTheHead : Prop :=
  ∀ q : List Byte, 0 < q.length → ∃ (b : Byte) (rest : List Byte), pop q = some (b, rest) ∧ q = b :: rest ∧
    rest.length + 1 = q.length

/-- R104: Flush makes one call per byte of TXQ, oldest first; RXQ takes the first replies it has room for and the others are dropped;
TXE is set; RXNE tells whether RXQ holds a byte; OVR, TXOVF and the rest are not written; IRQ is not driven. -/
def Obligations.FlushDrainsTxqIntoRxq : Prop :=
  ∀ s : State, ∃ rs : List Byte, rs.length = s.txq.length ∧ s.flush.txq = [] ∧
    s.flush.rxq = s.rxq ++ rs.take (min s.txq.length (8 - s.rxq.length)) ∧
    s.flush.trace = s.trace ++ List.zipWith Event.transfer s.txq rs ∧
    s.flush.sr.getLsbD 1 = true ∧ s.flush.sr.getLsbD 0 = decide (0 < s.flush.rxq.length) ∧
    (0 < s.txq.length → s.flush.sr.getLsbD 0 = true) ∧ (∀ k, 2 ≤ k → s.flush.sr.getLsbD k = s.sr.getLsbD k) ∧
    s.flush.cr1 = s.cr1 ∧ s.flush.cr2 = s.cr2 ∧ s.flush.csctrl = s.csctrl ∧ s.flush.csN = s.csN ∧ s.flush.irq = s.irq ∧
    SameBus s s.flush

/-- R102, the four policies: TXQ overflow drops the written byte and sets TXOVF; RXQ overflow drops the reply with no flag; RXQ
underflow returns 0 and sets OVR; a flush of an empty TXQ makes no call. -/
def Obligations.OverflowAndUnderflowPolicies : Prop :=
  (∀ (w : Word) (s : State), s.txq.length = 8 → ∃ t, exec (.wrDr w) s = .next t ∧ t.txq = s.txq ∧
    t.sr.getLsbD 3 = true ∧ sentBytes t.trace = sentBytes s.trace) ∧
  (∀ (w : Word) (s : State), s.txq.length < 8 → s.rxq.length = 8 → ∃ t, exec (.wrDr w) s = .next t ∧ t.rxq = s.rxq ∧
    (∀ k, 2 ≤ k → t.sr.getLsbD k = s.sr.getLsbD k) ∧
    sentBytes t.trace = sentBytes s.trace ++ s.txq ++ [w.extractLsb' 0 8]) ∧
  (∀ s : State, s.rxq = [] → ∃ t, exec .rdDr s = .next t ∧ t.rdata = some 0 ∧ t.sr.getLsbD 2 = true) ∧
  (∀ s : State, s.txq = [] → s.flush.trace = s.trace ∧ s.flush.rxq = s.rxq ∧ s.flush.replies = s.replies)

/-- R151: the full table of the level, as one expression. -/
def Obligations.IrqLevelFollowsTheTable : Prop :=
  ∀ sr cr2 : Word,
    let t := sr.getLsbD 1 && cr2.getLsbD 7
    let r := sr.getLsbD 0 && cr2.getLsbD 6
    let e := (sr.getLsbD 2 || sr.getLsbD 3) && cr2.getLsbD 5
    irqLevel sr cr2 = if e then 3 else if r then 2 else if t then 1 else 0

/-- R150: the level is 3 for an enabled error, else 2 for an enabled receive-not-empty, else 1 for an enabled transmit-empty, else 0; it
reads SR[3:0] and CR2[7:5] and nothing else; every performed access ends by driving it, and so does reset. -/
def Obligations.EveryAccessEndsWithTheLevel : Prop :=
  (∀ sr cr2 : Word,
    ((sr.getLsbD 2 = true ∨ sr.getLsbD 3 = true) ∧ cr2.getLsbD 5 = true → irqLevel sr cr2 = 3) ∧
    (¬ ((sr.getLsbD 2 = true ∨ sr.getLsbD 3 = true) ∧ cr2.getLsbD 5 = true) →
      (sr.getLsbD 0 = true ∧ cr2.getLsbD 6 = true → irqLevel sr cr2 = 2) ∧
      (¬ (sr.getLsbD 0 = true ∧ cr2.getLsbD 6 = true) →
        (sr.getLsbD 1 = true ∧ cr2.getLsbD 7 = true → irqLevel sr cr2 = 1) ∧
        (¬ (sr.getLsbD 1 = true ∧ cr2.getLsbD 7 = true) → irqLevel sr cr2 = 0)))) ∧
  (∀ sr sr' cr2 cr2' : Word, sr.extractLsb' 0 4 = sr'.extractLsb' 0 4 → cr2.extractLsb' 5 3 = cr2'.extractLsb' 5 3 →
    irqLevel sr cr2 = irqLevel sr' cr2') ∧
  (∀ (i : Instr) (s t : State), exec i s = .next t → t.irq = irqLevel t.sr t.cr2) ∧
  (∀ s : State, s.applyReset.irq = irqLevel s.applyReset.sr s.applyReset.cr2)

/-! Rules of the whole machine -/

/-- R140: no operation stops, stalls or refuses; every performed access completes and, for a read, returns data. -/
def Obligations.EveryAccessCompletes : Prop :=
  ∀ (i : Instr) (s : State), ∃ t, exec i s = .next t ∧ t.rdata.isSome = !i.isWrite

/-- R22: what each access does to each of the four flags; an access not named for a flag leaves it unchanged; what reads them (RD_SR
and the interrupt logic); and the flags after reset. -/
def Obligations.FlagsChangeAsTabulated : Prop :=
  (∀ (i : Instr) (s t : State), exec i s = .next t →
    t.sr.getLsbD 0 = (match i with
      | .wrDr _ => if s.txq.length < 8 then decide (0 < t.rxq.length) else s.sr.getLsbD 0
      | .rdDr => s.sr.getLsbD 0 && decide (0 < t.rxq.length)
      | _ => s.sr.getLsbD 0) ∧
    t.sr.getLsbD 1 = (match i with
      | .wrDr _ => if s.txq.length < 8 then true else s.sr.getLsbD 1
      | _ => s.sr.getLsbD 1) ∧
    t.sr.getLsbD 2 = (match i with
      | .rdDr => s.sr.getLsbD 2 || decide (s.rxq.length = 0)
      | .wrSr w => s.sr.getLsbD 2 && !w.getLsbD 2
      | _ => s.sr.getLsbD 2) ∧
    t.sr.getLsbD 3 = (match i with
      | .wrDr _ => s.sr.getLsbD 3 || decide (8 ≤ s.txq.length)
      | .wrSr w => s.sr.getLsbD 3 && !w.getLsbD 3
      | _ => s.sr.getLsbD 3)) ∧
  (∀ s : State, ∃ t, exec .rdSr s = .next t ∧ t.rdata = some s.sr ∧ t.irq = irqLevel s.sr s.cr2) ∧
  State.reset.sr.getLsbD 0 = false ∧ State.reset.sr.getLsbD 1 = true ∧ State.reset.sr.getLsbD 2 = false ∧
  State.reset.sr.getLsbD 3 = false

/-- R13, R14, R16, R23, R26, R27, R31: which access alone can change each register, queue and line; no access touches the parameters,
the events to come, or bits 31:4 of SR. -/
def Obligations.OnlyItsOwnAccessChangesAnElement : Prop :=
  ∀ (i : Instr) (s t : State), exec i s = .next t →
    (t.cr1 ≠ s.cr1 → ∃ w, i = .wrCr1 w) ∧ (t.cr2 ≠ s.cr2 → ∃ w, i = .wrCr2 w) ∧
    (t.csctrl ≠ s.csctrl ∨ t.csN ≠ s.csN → ∃ w, i = .wrCsctrl w) ∧
    (t.sr ≠ s.sr → i = .rdDr ∨ ∃ w, i = .wrSr w ∨ i = .wrDr w) ∧
    (t.txq ≠ s.txq ∨ t.replies ≠ s.replies ∨ sentBytes t.trace ≠ sentBytes s.trace → ∃ w, i = .wrDr w) ∧
    (t.rxq ≠ s.rxq → i = .rdDr ∨ ∃ w, i = .wrDr w) ∧
    (∀ k, 4 ≤ k → t.sr.getLsbD k = s.sr.getLsbD k) ∧ SameBus s t

/-- R81, decision D14 (log 13): CR1 gates nothing. Any access but the two to CR1 does from a state with another CR1 what it does from the
first, CR1 kept. For WR_DR with the reply list used up the two runs get the same replies because the transport's free reply is in this model a
function of what the outside has seen, the model's own choice (log 3). -/
def Obligations.Cr1GatesNothing : Prop :=
  ∀ (i : Instr) (s t : State) (v : Word), i ≠ .rdCr1 → (∀ w, i ≠ .wrCr1 w) → exec i s = .next t →
    exec i { s with cr1 := v } = .next { t with cr1 := v }

/-- R103, R184 (decision D8): the chip-select register and lines gate no transfer. A DR access does the same whatever they hold. The transport's
free reply is in this model a function of what the outside has seen (log 3), which is the same in both states. -/
def Obligations.ChipSelectsGateNoTransfer : Prop :=
  ∀ (i : Instr) (s t : State) (c : Word) (l : BitVec 4), i = .rdDr ∨ (∃ w, i = .wrDr w) → exec i s = .next t →
    exec i { s with csctrl := c, csN := l } = .next { t with csctrl := c, csN := l }

/-- R188, R105 corner case e: with TXQ full, every access completes, drains nothing and transmits nothing. -/
def Obligations.FullTransmitQueueIsADeadEnd : Prop :=
  ∀ (i : Instr) (s : State), 8 ≤ s.txq.length → ∃ t, exec i s = .next t ∧ t.txq = s.txq ∧ sentBytes t.trace = sentBytes s.trace

/-- R152 (decision D5): from a state whose level is the function of its registers, only WR_CR2, WR_SR, WR_DR and RD_DR can change the
level. -/
def Obligations.LevelChangesOnlyByFourAccesses : Prop :=
  ∀ (i : Instr) (s t : State), exec i s = .next t → s.irq = irqLevel s.sr s.cr2 → t.irq ≠ s.irq →
    i = .rdDr ∨ ∃ w, i = .wrCr2 w ∨ i = .wrSr w ∨ i = .wrDr w

/-- R156 with R15 (decision D1): under the mask 0x40 a legal state whose level is the function of its registers is at level 0 or 2;
under 0xF0 each of the four levels is had by some legal state of R34. -/
def Obligations.MaskDecidesWhichLevelsOccur : Prop :=
  (∀ s : State, s.Legal → s.OutputsAgree → s.params.cr2Mask = .narrow → s.irq = 0 ∨ s.irq = 2) ∧
  (∀ l : BitVec 2, ∃ s : State, s.Legal ∧ s.OutputsAgree ∧ s.Boundary ∧ s.params.cr2Mask = .wide ∧ s.irq = l)

/-- R154: how each level is removed, by the access of the table, in that same access. -/
def Obligations.LevelsAreRemovedByTheirAccesses : Prop :=
  ∀ s : State,
    (∀ w : Word, w.getLsbD 2 = true → w.getLsbD 3 = true → ∃ t, exec (.wrSr w) s = .next t ∧ t.irq ≠ 3) ∧
    (s.rxq.length ≤ 1 → ∃ t, exec .rdDr s = .next t ∧ t.irq ≠ 2) ∧
    (∀ w : Word, w.getLsbD 7 = false → ∃ t, exec (.wrCr2 w) s = .next t ∧ t.irq ≠ 1) ∧
    (∀ w : Word, w.getLsbD 6 = false → ∃ t, exec (.wrCr2 w) s = .next t ∧ t.irq ≠ 2) ∧
    (∀ w : Word, w.getLsbD 5 = false → ∃ t, exec (.wrCr2 w) s = .next t ∧ t.irq ≠ 3)

/-- R180: in a state of R34 with TXEIE set, no access but WR_CR2 brings the level to 0, and TXEIE stays. -/
def Obligations.TransmitEmptyLevelStays : Prop :=
  ∀ (i : Instr) (s t : State), s.Boundary → s.cr2.getLsbD 7 = true → (∀ w, i ≠ .wrCr2 w) → exec i s = .next t →
    t.irq ≠ 0 ∧ t.cr2.getLsbD 7 = true ∧ t.Boundary

/-- R51 (decision D15): inside one access the transfers come first, in the order the bytes leave TXQ, or the lines, and the level last;
the level is driven once, and no access has both transfers and lines. The event list is the model's (log 7). -/
def Obligations.EffectsOfAnAccessAreOrdered : Prop :=
  ∀ (i : Instr) (s t : State), exec i s = .next t →
    ∃ before : List Event, t.trace = s.trace ++ before ++ irqEvents s.irq t.irq ∧
      match i with
      | .wrDr w => if s.txq.length < 8 then
            (∃ rs : List Byte, rs.length = s.txq.length + 1 ∧
              before = List.zipWith Event.transfer (s.txq ++ [w.extractLsb' 0 8]) rs)
          else before = []
      | .wrCsctrl _ => before = csEvents s.csN t.csN
      | _ => before = []

/-- R48: the same value written twice in a row to CR1, CR2, CSCTRL, SR or a reserved offset: the second write changes nothing. To DR,
each write transmits one more byte, provided TXQ is not full at the first (with TXQ full R105 drops the byte: WriteDrToAFullQueueLatchesTxovf). -/
def Obligations.RepeatedWritesAreIdempotentExceptDr : Prop :=
  ∀ (s : State) (o : Offset) (w : Word),
    (∀ i : Instr, i = .wrCr1 w ∨ i = .wrCr2 w ∨ i = .wrSr w ∨ i = .wrCsctrl w ∨ i = .wrRsvd14 w ∨ i = .wrRsvd18 o w ∨
        i = .wrRsvd20 o w ∨ i = .wrRsvd40 o w ∨ i = .wrRsvd80 o w →
      ∃ t, exec i s = .next t ∧ exec i t = .next t) ∧
    (s.txq.length < 8 → ∃ t u, exec (.wrDr w) s = .next t ∧ exec (.wrDr w) t = .next u ∧
      sentBytes u.trace = sentBytes t.trace ++ [w.extractLsb' 0 8])

/-- R81, R83, R122, R131: a read that follows a write returns the written value through the mask; a reserved offset of any of the five rows
returns 0. -/
def Obligations.WrittenRegistersReadBack : Prop :=
  ∀ (s : State) (o : Offset) (w : Word),
    (∃ t u, exec (.wrCr1 w) s = .next t ∧ exec .rdCr1 t = .next u ∧ u.rdata = some (w &&& 0x44)) ∧
    (∃ t u, exec (.wrCr2 w) s = .next t ∧ exec .rdCr2 t = .next u ∧
      u.rdata = some (w &&& (match s.params.cr2Mask with | .wide => 0xF0#32 | .narrow => 0x40#32))) ∧
    (∃ t u, exec (.wrCsctrl w) s = .next t ∧ exec .rdCsctrl t = .next u ∧ u.rdata = some (w &&& 0xFF)) ∧
    (∃ t u, exec (.wrRsvd14 w) s = .next t ∧ exec .rdRsvd14 t = .next u ∧ u.rdata = some 0) ∧
    (∃ t u, exec (.wrRsvd18 o w) s = .next t ∧ exec (.rdRsvd18 o) t = .next u ∧ u.rdata = some 0) ∧
    (∃ t u, exec (.wrRsvd20 o w) s = .next t ∧ exec (.rdRsvd20 o) t = .next u ∧ u.rdata = some 0) ∧
    (∃ t u, exec (.wrRsvd40 o w) s = .next t ∧ exec (.rdRsvd40 o) t = .next u ∧ u.rdata = some 0) ∧
    (∃ t u, exec (.wrRsvd80 o w) s = .next t ∧ exec (.rdRsvd80 o) t = .next u ∧ u.rdata = some 0)

/-! Invariants and headline results -/

/-- R25, R26, R27: unimplemented bits are 0 and queues within their capacity after every step from a state where they are. -/
def Obligations.StepKeepsRegistersLegal : Prop :=
  ∀ s t : State, s.Legal → step s = .next t → t.Legal

/-- R30, R31 (decisions D5, D6): both outputs are the functions of the registers after every step from a state where they are. -/
def Obligations.StepKeepsOutputsAgreeing : Prop :=
  ∀ s t : State, s.OutputsAgree → step s = .next t → t.OutputsAgree

/-- R32, R33, R34: the facts about access boundaries are kept by every step. -/
def Obligations.StepKeepsBoundary : Prop :=
  ∀ s t : State, s.Boundary → step s = .next t → t.Boundary

/-- R34, with R25 and R30, R31: they hold in every state of every run from reset, whatever the parameters, the events and the
replies. -/
def Obligations.ReachableStatesMeetTheInvariants : Prop :=
  ∀ s : State, Reachable s → s.Boundary ∧ s.Legal ∧ s.OutputsAgree

/-- R107: bytes exchanged by pairs. From a state of R34 with RXQ empty, the bus master writes up to eight values to DR and then reads DR
`k + 1` times: that read returns the reply to write `k`, the bytes went out in the order written, and no error was latched. All the writes come
before the reads. -/
def Obligations.RepliesComeBackInWriteOrder : Prop :=
  ∀ (s : State) (ws : List Word) (rs more : List Byte) (events : List BusEvent) (k : Nat) (r : Byte),
    s.Boundary → s.rxq = [] → s.params.base % 4 = 0 → ws.length = rs.length → rs.length ≤ 8 → s.replies = rs ++ more →
    rs[k]? = some r →
    s.pending = ws.map (fun w => BusEvent.access (.write (s.params.base + 0x0C) 4 w)) ++
      List.replicate (k + 1) (BusEvent.access (.read (s.params.base + 0x0C) 4)) ++ events →
    ∃ t, Sys2Proof.core.run (ws.length + (k + 1)) s = .next t ∧ t.rdata = some (r.setWidth 32) ∧ t.rxq = rs.drop (k + 1) ∧
      t.sr.getLsbD 2 = s.sr.getLsbD 2 ∧ t.sr.getLsbD 3 = s.sr.getLsbD 3 ∧ t.pending = events ∧ t.replies = more ∧
      sentBytes t.trace = sentBytes s.trace ++ ws.map (fun w => w.extractLsb' 0 8)
end

