-- ==== Sys2Proof/Laws/Constants.lean ====
section
/-! SUPPORT. The value of each constant of R4 that proofs compute with, to rewrite by before arithmetic; and the widths they fix. -/

namespace Sys2Proof.Machine

theorem fifoDepth_eq : fifoDepth = 8 := rfl
theorem windowSize_eq : windowSize = 0x100 := rfl
theorem accessBytes_eq : accessBytes = 4 := rfl
theorem nCs_eq : nCs = 4 := rfl
theorem cr1Wmask_eq : cr1Wmask = 0x00000044 := rfl
theorem cr2Wmask_wide : cr2Wmask .wide = 0x000000F0 := rfl
theorem cr2Wmask_narrow : cr2Wmask .narrow = 0x00000040 := rfl
theorem srW1cMask_eq : srW1cMask = 0x0000000C := rfl
theorem csctrlWmask_eq : csctrlWmask = 0x000000FF := rfl

/-- A register is `XLEN_REG` bits, a queue element `FRAME_BITS` (R4). -/
theorem word_width : Word = BitVec xlenReg := rfl
theorem byte_width : Byte = BitVec frameBits := rfl

end Sys2Proof.Machine
end

