-- ==== Sys2Proof/Laws/Bits.lean ====
section
/-! SUPPORT. What the bit operations and the two output functions do, bit by bit. -/

namespace Sys2Proof.Machine

theorem getLsbD_setBit {k : Nat} (hk : k < 32) (w : Word) (i : Nat) :
    (setBit k w).getLsbD i = (w.getLsbD i || decide (i = k)) := by
  simp only [setBit, BitVec.getLsbD_or, BitVec.getLsbD_twoPow]
  by_cases h : k = i
  · subst h; simp [hk]
  · simp [h, Ne.symm h]

theorem getLsbD_clearBit {k : Nat} (hk : k < 32) (w : Word) (i : Nat) :
    (clearBit k w).getLsbD i = (w.getLsbD i && !decide (i = k)) := by
  simp only [clearBit, BitVec.getLsbD_and, BitVec.getLsbD_not, BitVec.getLsbD_twoPow]
  by_cases h : k = i
  · subst h; simp [hk]
  · by_cases hi : i < 32
    · simp [h, Ne.symm h, hi]
    · simp [BitVec.getLsbD_of_ge w i (by omega)]

theorem getElem_setBit {k : Nat} (hk : k < 32) (w : Word) (i : Nat) (hi : i < 32) :
    (setBit k w)[i] = (w[i] || decide (i = k)) := by
  simpa [hi] using getLsbD_setBit hk w i

theorem getElem_clearBit {k : Nat} (hk : k < 32) (w : Word) (i : Nat) (hi : i < 32) :
    (clearBit k w)[i] = (w[i] && !decide (i = k)) := by
  simpa [hi] using getLsbD_clearBit hk w i

/-! The same for each flag of SR, with its bit position written out. -/

@[simp] theorem getLsbD_setBit_rxne (w : Word) (i : Nat) : (setBit rxne w).getLsbD i = (w.getLsbD i || decide (i = 0)) :=
  getLsbD_setBit (by decide) w i
@[simp] theorem getElem_setBit_rxne (w : Word) (i : Nat) (hi : i < 32) : (setBit rxne w)[i] = (w[i] || decide (i = 0)) :=
  getElem_setBit (by decide) w i hi
@[simp] theorem getLsbD_clearBit_rxne (w : Word) (i : Nat) : (clearBit rxne w).getLsbD i = (w.getLsbD i && !decide (i = 0)) :=
  getLsbD_clearBit (by decide) w i
@[simp] theorem getElem_clearBit_rxne (w : Word) (i : Nat) (hi : i < 32) : (clearBit rxne w)[i] = (w[i] && !decide (i = 0)) :=
  getElem_clearBit (by decide) w i hi
@[simp] theorem getLsbD_setBit_txe (w : Word) (i : Nat) : (setBit txe w).getLsbD i = (w.getLsbD i || decide (i = 1)) :=
  getLsbD_setBit (by decide) w i
@[simp] theorem getElem_setBit_txe (w : Word) (i : Nat) (hi : i < 32) : (setBit txe w)[i] = (w[i] || decide (i = 1)) :=
  getElem_setBit (by decide) w i hi
@[simp] theorem getLsbD_clearBit_txe (w : Word) (i : Nat) : (clearBit txe w).getLsbD i = (w.getLsbD i && !decide (i = 1)) :=
  getLsbD_clearBit (by decide) w i
@[simp] theorem getElem_clearBit_txe (w : Word) (i : Nat) (hi : i < 32) : (clearBit txe w)[i] = (w[i] && !decide (i = 1)) :=
  getElem_clearBit (by decide) w i hi
@[simp] theorem getLsbD_setBit_ovr (w : Word) (i : Nat) : (setBit ovr w).getLsbD i = (w.getLsbD i || decide (i = 2)) :=
  getLsbD_setBit (by decide) w i
@[simp] theorem getElem_setBit_ovr (w : Word) (i : Nat) (hi : i < 32) : (setBit ovr w)[i] = (w[i] || decide (i = 2)) :=
  getElem_setBit (by decide) w i hi
@[simp] theorem getLsbD_setBit_txovf (w : Word) (i : Nat) : (setBit txovf w).getLsbD i = (w.getLsbD i || decide (i = 3)) :=
  getLsbD_setBit (by decide) w i
@[simp] theorem getElem_setBit_txovf (w : Word) (i : Nat) (hi : i < 32) : (setBit txovf w)[i] = (w[i] || decide (i = 3)) :=
  getElem_setBit (by decide) w i hi

/-- Setting a bit inside a mask keeps the bits outside it clear. -/
theorem setBit_outside {k : Nat} {w m : Word} (h : w &&& ~~~m = 0) (hk : BitVec.twoPow 32 k &&& ~~~m = 0) :
    setBit k w &&& ~~~m = 0 := by
  have : setBit k w &&& ~~~m = (w &&& ~~~m) ||| (BitVec.twoPow 32 k &&& ~~~m) := by
    ext i hi; simp [setBit]; cases w[i] <;> cases m[i] <;> simp
  rw [this, h, hk]; rfl

/-- Clearing a bit keeps the bits outside a mask clear. -/
theorem clearBit_outside {k : Nat} {w m : Word} (h : w &&& ~~~m = 0) : clearBit k w &&& ~~~m = 0 := by
  have : clearBit k w &&& ~~~m = (w &&& ~~~m) &&& ~~~(BitVec.twoPow 32 k) := by
    ext i hi; simp [clearBit]; cases w[i] <;> cases m[i] <;> simp
  rw [this, h]; exact BitVec.zero_and

/-- What the mask leaves has no bit outside the mask. -/
theorem and_mask_outside (w m : Word) : w &&& m &&& ~~~m = 0 := by
  ext i hi; simp

/-- WR_SR's new value, bit by bit: bits 2 and 3 fall where a 1 is written (R91). -/
theorem getLsbD_srAfterWrite (w sr : Word) (i : Nat) :
    (srAfterWrite w sr).getLsbD i =
      (sr.getLsbD i && !((decide (i = 2) && w.getLsbD 2) || (decide (i = 3) && w.getLsbD 3))) := by
  have hmask : ∀ k : Fin 32, srW1cMask.getLsbD k = (decide (k.val = 2) || decide (k.val = 3)) := by decide
  by_cases hi : i < 32
  · simp only [srAfterWrite, BitVec.getLsbD_and, BitVec.getLsbD_not, hmask ⟨i, hi⟩, hi]
    by_cases h2 : i = 2
    · subst h2; simp
    · by_cases h3 : i = 3
      · subst h3; simp
      · simp [h2, h3]
  · simp [srAfterWrite, BitVec.getLsbD_of_ge sr i (by omega)]

/-- The byte a DR write uses is the low byte of the write data (R105). -/
@[simp] theorem drOperand_eq (w : Word) : drOperand w = w.extractLsb' 0 8 := by
  have hmask : ∀ k : Fin 8, drWmask.getLsbD k = true := by decide
  apply BitVec.eq_of_getLsbD_eq
  intro i hi
  simp only [drOperand, BitVec.getLsbD_setWidth, BitVec.getLsbD_and, hmask ⟨i, hi⟩, BitVec.getLsbD_extractLsb',
    Nat.zero_add, Bool.and_true]

/-- The level reads four bits of SR and three of CR2 (R150). -/
theorem irqLevel_congr {sr sr' cr2 cr2' : Word}
    (hs : ∀ k, k < 4 → sr.getLsbD k = sr'.getLsbD k) (hc : ∀ k, 5 ≤ k → k < 8 → cr2.getLsbD k = cr2'.getLsbD k) :
    irqLevel sr cr2 = irqLevel sr' cr2' := by
  unfold irqLevel
  rw [hs 0 (by omega), hs 1 (by omega), hs 2 (by omega), hs 3 (by omega),
    hc 5 (by omega) (by omega), hc 6 (by omega) (by omega), hc 7 (by omega) (by omega)]

end Sys2Proof.Machine
end

