-- ==== Sys2Proof/Laws/PerInstr.lean ====
section
/-! SUPPORT. The family CommandWord, one lemma per instruction: the command word of a well-formed instruction selects the instruction's own row of the operation map and carries its offset (R61, R65). -/

namespace Sys2Proof.Laws.CommandWord

def Statement (i : Instr) : Prop :=
  i.wf = true → selectOp i.command = some i.op ∧ Command.offset i.command = i.offset ∧ Command.isWrite i.command = i.isWrite

/-- For every offset of a range, on one side of `W`, the row is the given one. -/
abbrev RowOf (lo hi : Nat) (isWrite : Bool) (op : Op) : Prop :=
  ∀ o : Offset, offsetIn lo hi o = true →
    selectOp (commandOf isWrite o) = some op ∧ Command.offset (commandOf isWrite o) = o ∧
      Command.isWrite (commandOf isWrite o) = isWrite

theorem rdCr1 : Statement .rdCr1 := by intro _; decide
theorem wrCr1 (w : Word) : Statement (.wrCr1 w) := by
  intro _; simp only [Instr.command, Instr.isWrite, Instr.offset, Instr.op]; decide
theorem rdCr2 : Statement .rdCr2 := by intro _; decide
theorem wrCr2 (w : Word) : Statement (.wrCr2 w) := by
  intro _; simp only [Instr.command, Instr.isWrite, Instr.offset, Instr.op]; decide
theorem rdSr : Statement .rdSr := by intro _; decide
theorem wrSr (w : Word) : Statement (.wrSr w) := by
  intro _; simp only [Instr.command, Instr.isWrite, Instr.offset, Instr.op]; decide
theorem rdDr : Statement .rdDr := by intro _; decide
theorem wrDr (w : Word) : Statement (.wrDr w) := by
  intro _; simp only [Instr.command, Instr.isWrite, Instr.offset, Instr.op]; decide
theorem rdCsctrl : Statement .rdCsctrl := by intro _; decide
theorem wrCsctrl (w : Word) : Statement (.wrCsctrl w) := by
  intro _; simp only [Instr.command, Instr.isWrite, Instr.offset, Instr.op]; decide
theorem rdRsvd14 : Statement .rdRsvd14 := by intro _; decide
theorem rdRsvd18 (o : Offset) : Statement (.rdRsvd18 o) :=
  (by decide : RowOf 0x18 0x1C false .rdRsvd18) o
theorem rdRsvd20 (o : Offset) : Statement (.rdRsvd20 o) :=
  (by decide : RowOf 0x20 0x3C false .rdRsvd20) o
theorem rdRsvd40 (o : Offset) : Statement (.rdRsvd40 o) :=
  (by decide : RowOf 0x40 0x7C false .rdRsvd40) o
theorem rdRsvd80 (o : Offset) : Statement (.rdRsvd80 o) :=
  (by decide : RowOf 0x80 0xFC false .rdRsvd80) o
theorem wrRsvd14 (w : Word) : Statement (.wrRsvd14 w) := by
  intro _; simp only [Instr.command, Instr.isWrite, Instr.offset, Instr.op]; decide
theorem wrRsvd18 (o : Offset) (w : Word) : Statement (.wrRsvd18 o w) :=
  (by decide : RowOf 0x18 0x1C true .wrRsvd18) o
theorem wrRsvd20 (o : Offset) (w : Word) : Statement (.wrRsvd20 o w) :=
  (by decide : RowOf 0x20 0x3C true .wrRsvd20) o
theorem wrRsvd40 (o : Offset) (w : Word) : Statement (.wrRsvd40 o w) :=
  (by decide : RowOf 0x40 0x7C true .wrRsvd40) o
theorem wrRsvd80 (o : Offset) (w : Word) : Statement (.wrRsvd80 o w) :=
  (by decide : RowOf 0x80 0xFC true .wrRsvd80) o

end Sys2Proof.Laws.CommandWord
end

