-- ==== Sys2Proof/Laws/Decode.lean ====
section
/-! SUPPORT. What decoding does, said once: byte lanes and back, the command word of a well-formed instruction, and what a selected row stands for. -/

namespace Sys2Proof

/-- The value of its own lanes is the value. -/
theorem ofLanes_lanes (w : Word) : ofLanes (w.extractLsb' 0 8) (w.extractLsb' 8 8) (w.extractLsb' 16 8) (w.extractLsb' 24 8) = w := by
  apply BitVec.eq_of_getLsbD_eq
  intro i hi
  simp only [ofLanes, BitVec.getLsbD_or, BitVec.getLsbD_shiftLeft, BitVec.getLsbD_setWidth, BitVec.getLsbD_extractLsb']
  rcases (by omega : i < 8 ∨ (8 ≤ i ∧ i < 16) ∨ (16 ≤ i ∧ i < 24) ∨ 24 ≤ i) with h | ⟨h, h'⟩ | ⟨h, h'⟩ | h
  · simp [hi, h, show i < 16 by omega, show i < 24 by omega]
  · simp [hi, h, h', show ¬ i < 8 by omega, show i < 24 by omega, show i - 8 < 8 by omega]
    try (intro _; omega)
  · simp [hi, h, h', show ¬ i < 8 by omega, show ¬ i < 16 by omega, show ¬ i - 8 < 8 by omega, show i - 16 < 8 by omega]
    try (intro _; omega)
  · simp [hi, h, show ¬ i < 8 by omega, show ¬ i < 16 by omega, show ¬ i < 24 by omega, show ¬ i - 8 < 8 by omega, show ¬ i - 16 < 8 by omega, show i - 24 < 8 by omega]
    try (intro _; omega)

/-- The lanes of a value put together from lanes are those lanes. -/
theorem lanes_ofLanes (a b c d : Byte) : lanes (ofLanes a b c d) = [a,b,c,d] := by
  have h0 : (ofLanes a b c d).extractLsb' 0 8 = a := by
    apply BitVec.eq_of_getLsbD_eq; intro i hi
    simp only [ofLanes, BitVec.getLsbD_or, BitVec.getLsbD_shiftLeft, BitVec.getLsbD_setWidth, BitVec.getLsbD_extractLsb']
    simp [hi, show i < 32 by omega, show i < 16 by omega, show i < 24 by omega]
  have h1 : (ofLanes a b c d).extractLsb' 8 8 = b := by
    apply BitVec.eq_of_getLsbD_eq; intro i hi
    simp only [ofLanes, BitVec.getLsbD_or, BitVec.getLsbD_shiftLeft, BitVec.getLsbD_setWidth, BitVec.getLsbD_extractLsb']
    simp [hi, show 8+i < 32 by omega, show 8+i < 16 by omega, show 8+i < 24 by omega, show i < 32 by omega]
  have h2 : (ofLanes a b c d).extractLsb' 16 8 = c := by
    apply BitVec.eq_of_getLsbD_eq; intro i hi
    simp only [ofLanes, BitVec.getLsbD_or, BitVec.getLsbD_shiftLeft, BitVec.getLsbD_setWidth, BitVec.getLsbD_extractLsb']
    simp [hi, show 16+i < 32 by omega, show i < 32 by omega, BitVec.getLsbD_of_ge a (16+i) (by omega), BitVec.getLsbD_of_ge b (16+i-8) (by omega), show 16+i < 24 by omega]
  have h3 : (ofLanes a b c d).extractLsb' 24 8 = d := by
    apply BitVec.eq_of_getLsbD_eq; intro i hi
    simp only [ofLanes, BitVec.getLsbD_or, BitVec.getLsbD_shiftLeft, BitVec.getLsbD_setWidth, BitVec.getLsbD_extractLsb']
    simp [hi, show 24+i < 32 by omega, show i < 32 by omega, BitVec.getLsbD_of_ge a (24+i) (by omega), BitVec.getLsbD_of_ge b (24+i-8) (by omega), BitVec.getLsbD_of_ge c (24+i-16) (by omega)]
  simp [lanes, h0, h1, h2, h3]

/-- The family CommandWord for every instruction. -/
theorem commandWord (i : Instr) : Laws.CommandWord.Statement i := by
  cases i
  · exact Laws.CommandWord.rdCr1
  · exact Laws.CommandWord.wrCr1 _
  · exact Laws.CommandWord.rdCr2
  · exact Laws.CommandWord.wrCr2 _
  · exact Laws.CommandWord.rdSr
  · exact Laws.CommandWord.wrSr _
  · exact Laws.CommandWord.rdDr
  · exact Laws.CommandWord.wrDr _
  · exact Laws.CommandWord.rdCsctrl
  · exact Laws.CommandWord.wrCsctrl _
  · exact Laws.CommandWord.rdRsvd14
  · exact Laws.CommandWord.rdRsvd18 _
  · exact Laws.CommandWord.rdRsvd20 _
  · exact Laws.CommandWord.rdRsvd40 _
  · exact Laws.CommandWord.rdRsvd80 _
  · exact Laws.CommandWord.wrRsvd14 _
  · exact Laws.CommandWord.wrRsvd18 _ _
  · exact Laws.CommandWord.wrRsvd20 _ _
  · exact Laws.CommandWord.wrRsvd40 _ _
  · exact Laws.CommandWord.wrRsvd80 _ _

/-- The offset of a command word is the one it was made from. -/
theorem offset_commandOf : ∀ (w : Bool) (o : Offset), Command.offset (commandOf w o) = o := by decide

/-- A well-formed instruction is what the block decodes from its command word and write data. -/
theorem decodeAccess_command (i : Instr) (h : i.wf = true) : decodeAccess i.command i.wdata = .ok i := by
  obtain ⟨h1, h2, -⟩ := commandWord i h
  rw [decodeAccess, h1, h2]
  cases i <;> rfl

/-- An instruction read from a command word is well-formed and carries the word's direction and offset, and the write data. -/
theorem selectOp_instr : ∀ (w : Bool) (o : Offset) (op : Op), selectOp (commandOf w o) = some op →
   ∀ v : Word, (w = false → v = 0) → (op.instr o v).wf = true ∧ (op.instr o v).isWrite = w ∧ (op.instr o v).offset = o ∧ (op.instr o v).wdata = v := by
  have key : ∀ (w : Bool) (o : Offset), ∀ op ∈ selectOp (commandOf w o), (op.instr o 0).wf = true ∧ (op.instr o 0).isWrite = w ∧ (op.instr o 0).offset = o := by decide
  intro w o op h v hv
  obtain ⟨a, b, c⟩ := key w o op h
  cases op <;> simp_all [Op.instr, Instr.wf, Instr.isWrite, Instr.offset, Instr.wdata]

/-- A well-formed instruction's word index lies in the window (R4 `N_WORDS`, R41). -/
theorem wordIndex_lt_nWords (i : Instr) : i.offset.toNat / 4 < Machine.nWords :=
  Nat.div_lt_of_lt_mul i.offset.isLt

/-- The register rows are the two directions of word indices 0 to 4, the reserved rows have the indices from 5 on (R4 `N_REGS`). -/
theorem rows_by_nRegs : registerRows.length = 2 * Machine.nRegs ∧
    (∀ r ∈ registerRows, (Command.offset r.matchBits).toNat / 4 < Machine.nRegs) ∧
    (∀ r ∈ reservedRows, Machine.nRegs ≤ (Command.offset r.matchBits).toNat / 4) := by decide

end Sys2Proof
end

