-- ==== Sys2Proof/Laws/State.lean ====
section
/-! SUPPORT. One lemma per field per named update of State, true by rfl, so that no proof unfolds a record update. -/

namespace Sys2Proof.Machine.State

@[simp] theorem setCr1_cr1 (s : State) (v : Word) : (s.setCr1 v).cr1 = v := rfl
@[simp] theorem setCr1_cr2 (s : State) (v : Word) : (s.setCr1 v).cr2 = s.cr2 := rfl
@[simp] theorem setCr1_sr (s : State) (v : Word) : (s.setCr1 v).sr = s.sr := rfl
@[simp] theorem setCr1_csctrl (s : State) (v : Word) : (s.setCr1 v).csctrl = s.csctrl := rfl
@[simp] theorem setCr1_txq (s : State) (v : Word) : (s.setCr1 v).txq = s.txq := rfl
@[simp] theorem setCr1_rxq (s : State) (v : Word) : (s.setCr1 v).rxq = s.rxq := rfl
@[simp] theorem setCr1_irq (s : State) (v : Word) : (s.setCr1 v).irq = s.irq := rfl
@[simp] theorem setCr1_csN (s : State) (v : Word) : (s.setCr1 v).csN = s.csN := rfl
@[simp] theorem setCr1_rdata (s : State) (v : Word) : (s.setCr1 v).rdata = s.rdata := rfl
@[simp] theorem setCr1_params (s : State) (v : Word) : (s.setCr1 v).params = s.params := rfl
@[simp] theorem setCr1_pending (s : State) (v : Word) : (s.setCr1 v).pending = s.pending := rfl
@[simp] theorem setCr1_replies (s : State) (v : Word) : (s.setCr1 v).replies = s.replies := rfl
@[simp] theorem setCr1_trace (s : State) (v : Word) : (s.setCr1 v).trace = s.trace := rfl

@[simp] theorem setCr2_cr1 (s : State) (v : Word) : (s.setCr2 v).cr1 = s.cr1 := rfl
@[simp] theorem setCr2_cr2 (s : State) (v : Word) : (s.setCr2 v).cr2 = v := rfl
@[simp] theorem setCr2_sr (s : State) (v : Word) : (s.setCr2 v).sr = s.sr := rfl
@[simp] theorem setCr2_csctrl (s : State) (v : Word) : (s.setCr2 v).csctrl = s.csctrl := rfl
@[simp] theorem setCr2_txq (s : State) (v : Word) : (s.setCr2 v).txq = s.txq := rfl
@[simp] theorem setCr2_rxq (s : State) (v : Word) : (s.setCr2 v).rxq = s.rxq := rfl
@[simp] theorem setCr2_irq (s : State) (v : Word) : (s.setCr2 v).irq = s.irq := rfl
@[simp] theorem setCr2_csN (s : State) (v : Word) : (s.setCr2 v).csN = s.csN := rfl
@[simp] theorem setCr2_rdata (s : State) (v : Word) : (s.setCr2 v).rdata = s.rdata := rfl
@[simp] theorem setCr2_params (s : State) (v : Word) : (s.setCr2 v).params = s.params := rfl
@[simp] theorem setCr2_pending (s : State) (v : Word) : (s.setCr2 v).pending = s.pending := rfl
@[simp] theorem setCr2_replies (s : State) (v : Word) : (s.setCr2 v).replies = s.replies := rfl
@[simp] theorem setCr2_trace (s : State) (v : Word) : (s.setCr2 v).trace = s.trace := rfl

@[simp] theorem setSr_cr1 (s : State) (v : Word) : (s.setSr v).cr1 = s.cr1 := rfl
@[simp] theorem setSr_cr2 (s : State) (v : Word) : (s.setSr v).cr2 = s.cr2 := rfl
@[simp] theorem setSr_sr (s : State) (v : Word) : (s.setSr v).sr = v := rfl
@[simp] theorem setSr_csctrl (s : State) (v : Word) : (s.setSr v).csctrl = s.csctrl := rfl
@[simp] theorem setSr_txq (s : State) (v : Word) : (s.setSr v).txq = s.txq := rfl
@[simp] theorem setSr_rxq (s : State) (v : Word) : (s.setSr v).rxq = s.rxq := rfl
@[simp] theorem setSr_irq (s : State) (v : Word) : (s.setSr v).irq = s.irq := rfl
@[simp] theorem setSr_csN (s : State) (v : Word) : (s.setSr v).csN = s.csN := rfl
@[simp] theorem setSr_rdata (s : State) (v : Word) : (s.setSr v).rdata = s.rdata := rfl
@[simp] theorem setSr_params (s : State) (v : Word) : (s.setSr v).params = s.params := rfl
@[simp] theorem setSr_pending (s : State) (v : Word) : (s.setSr v).pending = s.pending := rfl
@[simp] theorem setSr_replies (s : State) (v : Word) : (s.setSr v).replies = s.replies := rfl
@[simp] theorem setSr_trace (s : State) (v : Word) : (s.setSr v).trace = s.trace := rfl

@[simp] theorem setCsctrl_cr1 (s : State) (v : Word) : (s.setCsctrl v).cr1 = s.cr1 := rfl
@[simp] theorem setCsctrl_cr2 (s : State) (v : Word) : (s.setCsctrl v).cr2 = s.cr2 := rfl
@[simp] theorem setCsctrl_sr (s : State) (v : Word) : (s.setCsctrl v).sr = s.sr := rfl
@[simp] theorem setCsctrl_csctrl (s : State) (v : Word) : (s.setCsctrl v).csctrl = v := rfl
@[simp] theorem setCsctrl_txq (s : State) (v : Word) : (s.setCsctrl v).txq = s.txq := rfl
@[simp] theorem setCsctrl_rxq (s : State) (v : Word) : (s.setCsctrl v).rxq = s.rxq := rfl
@[simp] theorem setCsctrl_irq (s : State) (v : Word) : (s.setCsctrl v).irq = s.irq := rfl
@[simp] theorem setCsctrl_csN (s : State) (v : Word) : (s.setCsctrl v).csN = s.csN := rfl
@[simp] theorem setCsctrl_rdata (s : State) (v : Word) : (s.setCsctrl v).rdata = s.rdata := rfl
@[simp] theorem setCsctrl_params (s : State) (v : Word) : (s.setCsctrl v).params = s.params := rfl
@[simp] theorem setCsctrl_pending (s : State) (v : Word) : (s.setCsctrl v).pending = s.pending := rfl
@[simp] theorem setCsctrl_replies (s : State) (v : Word) : (s.setCsctrl v).replies = s.replies := rfl
@[simp] theorem setCsctrl_trace (s : State) (v : Word) : (s.setCsctrl v).trace = s.trace := rfl

@[simp] theorem setTxq_cr1 (s : State) (q : List Byte) : (s.setTxq q).cr1 = s.cr1 := rfl
@[simp] theorem setTxq_cr2 (s : State) (q : List Byte) : (s.setTxq q).cr2 = s.cr2 := rfl
@[simp] theorem setTxq_sr (s : State) (q : List Byte) : (s.setTxq q).sr = s.sr := rfl
@[simp] theorem setTxq_csctrl (s : State) (q : List Byte) : (s.setTxq q).csctrl = s.csctrl := rfl
@[simp] theorem setTxq_txq (s : State) (q : List Byte) : (s.setTxq q).txq = q := rfl
@[simp] theorem setTxq_rxq (s : State) (q : List Byte) : (s.setTxq q).rxq = s.rxq := rfl
@[simp] theorem setTxq_irq (s : State) (q : List Byte) : (s.setTxq q).irq = s.irq := rfl
@[simp] theorem setTxq_csN (s : State) (q : List Byte) : (s.setTxq q).csN = s.csN := rfl
@[simp] theorem setTxq_rdata (s : State) (q : List Byte) : (s.setTxq q).rdata = s.rdata := rfl
@[simp] theorem setTxq_params (s : State) (q : List Byte) : (s.setTxq q).params = s.params := rfl
@[simp] theorem setTxq_pending (s : State) (q : List Byte) : (s.setTxq q).pending = s.pending := rfl
@[simp] theorem setTxq_replies (s : State) (q : List Byte) : (s.setTxq q).replies = s.replies := rfl
@[simp] theorem setTxq_trace (s : State) (q : List Byte) : (s.setTxq q).trace = s.trace := rfl

@[simp] theorem setRxq_cr1 (s : State) (q : List Byte) : (s.setRxq q).cr1 = s.cr1 := rfl
@[simp] theorem setRxq_cr2 (s : State) (q : List Byte) : (s.setRxq q).cr2 = s.cr2 := rfl
@[simp] theorem setRxq_sr (s : State) (q : List Byte) : (s.setRxq q).sr = s.sr := rfl
@[simp] theorem setRxq_csctrl (s : State) (q : List Byte) : (s.setRxq q).csctrl = s.csctrl := rfl
@[simp] theorem setRxq_txq (s : State) (q : List Byte) : (s.setRxq q).txq = s.txq := rfl
@[simp] theorem setRxq_rxq (s : State) (q : List Byte) : (s.setRxq q).rxq = q := rfl
@[simp] theorem setRxq_irq (s : State) (q : List Byte) : (s.setRxq q).irq = s.irq := rfl
@[simp] theorem setRxq_csN (s : State) (q : List Byte) : (s.setRxq q).csN = s.csN := rfl
@[simp] theorem setRxq_rdata (s : State) (q : List Byte) : (s.setRxq q).rdata = s.rdata := rfl
@[simp] theorem setRxq_params (s : State) (q : List Byte) : (s.setRxq q).params = s.params := rfl
@[simp] theorem setRxq_pending (s : State) (q : List Byte) : (s.setRxq q).pending = s.pending := rfl
@[simp] theorem setRxq_replies (s : State) (q : List Byte) : (s.setRxq q).replies = s.replies := rfl
@[simp] theorem setRxq_trace (s : State) (q : List Byte) : (s.setRxq q).trace = s.trace := rfl

@[simp] theorem setRdata_cr1 (s : State) (r : Option Word) : (s.setRdata r).cr1 = s.cr1 := rfl
@[simp] theorem setRdata_cr2 (s : State) (r : Option Word) : (s.setRdata r).cr2 = s.cr2 := rfl
@[simp] theorem setRdata_sr (s : State) (r : Option Word) : (s.setRdata r).sr = s.sr := rfl
@[simp] theorem setRdata_csctrl (s : State) (r : Option Word) : (s.setRdata r).csctrl = s.csctrl := rfl
@[simp] theorem setRdata_txq (s : State) (r : Option Word) : (s.setRdata r).txq = s.txq := rfl
@[simp] theorem setRdata_rxq (s : State) (r : Option Word) : (s.setRdata r).rxq = s.rxq := rfl
@[simp] theorem setRdata_irq (s : State) (r : Option Word) : (s.setRdata r).irq = s.irq := rfl
@[simp] theorem setRdata_csN (s : State) (r : Option Word) : (s.setRdata r).csN = s.csN := rfl
@[simp] theorem setRdata_rdata (s : State) (r : Option Word) : (s.setRdata r).rdata = r := rfl
@[simp] theorem setRdata_params (s : State) (r : Option Word) : (s.setRdata r).params = s.params := rfl
@[simp] theorem setRdata_pending (s : State) (r : Option Word) : (s.setRdata r).pending = s.pending := rfl
@[simp] theorem setRdata_replies (s : State) (r : Option Word) : (s.setRdata r).replies = s.replies := rfl
@[simp] theorem setRdata_trace (s : State) (r : Option Word) : (s.setRdata r).trace = s.trace := rfl

@[simp] theorem setPending_cr1 (s : State) (p : List BusEvent) : (s.setPending p).cr1 = s.cr1 := rfl
@[simp] theorem setPending_cr2 (s : State) (p : List BusEvent) : (s.setPending p).cr2 = s.cr2 := rfl
@[simp] theorem setPending_sr (s : State) (p : List BusEvent) : (s.setPending p).sr = s.sr := rfl
@[simp] theorem setPending_csctrl (s : State) (p : List BusEvent) : (s.setPending p).csctrl = s.csctrl := rfl
@[simp] theorem setPending_txq (s : State) (p : List BusEvent) : (s.setPending p).txq = s.txq := rfl
@[simp] theorem setPending_rxq (s : State) (p : List BusEvent) : (s.setPending p).rxq = s.rxq := rfl
@[simp] theorem setPending_irq (s : State) (p : List BusEvent) : (s.setPending p).irq = s.irq := rfl
@[simp] theorem setPending_csN (s : State) (p : List BusEvent) : (s.setPending p).csN = s.csN := rfl
@[simp] theorem setPending_rdata (s : State) (p : List BusEvent) : (s.setPending p).rdata = s.rdata := rfl
@[simp] theorem setPending_params (s : State) (p : List BusEvent) : (s.setPending p).params = s.params := rfl
@[simp] theorem setPending_pending (s : State) (p : List BusEvent) : (s.setPending p).pending = p := rfl
@[simp] theorem setPending_replies (s : State) (p : List BusEvent) : (s.setPending p).replies = s.replies := rfl
@[simp] theorem setPending_trace (s : State) (p : List BusEvent) : (s.setPending p).trace = s.trace := rfl

@[simp] theorem irqUpdate_cr1 (s : State) : s.irqUpdate.cr1 = s.cr1 := rfl
@[simp] theorem irqUpdate_cr2 (s : State) : s.irqUpdate.cr2 = s.cr2 := rfl
@[simp] theorem irqUpdate_sr (s : State) : s.irqUpdate.sr = s.sr := rfl
@[simp] theorem irqUpdate_csctrl (s : State) : s.irqUpdate.csctrl = s.csctrl := rfl
@[simp] theorem irqUpdate_txq (s : State) : s.irqUpdate.txq = s.txq := rfl
@[simp] theorem irqUpdate_rxq (s : State) : s.irqUpdate.rxq = s.rxq := rfl
@[simp] theorem irqUpdate_irq (s : State) : s.irqUpdate.irq = irqLevel s.sr s.cr2 := rfl
@[simp] theorem irqUpdate_csN (s : State) : s.irqUpdate.csN = s.csN := rfl
@[simp] theorem irqUpdate_rdata (s : State) : s.irqUpdate.rdata = s.rdata := rfl
@[simp] theorem irqUpdate_params (s : State) : s.irqUpdate.params = s.params := rfl
@[simp] theorem irqUpdate_pending (s : State) : s.irqUpdate.pending = s.pending := rfl
@[simp] theorem irqUpdate_replies (s : State) : s.irqUpdate.replies = s.replies := rfl
@[simp] theorem irqUpdate_trace (s : State) : s.irqUpdate.trace = s.trace ++ irqEvents s.irq (irqLevel s.sr s.cr2) := rfl

@[simp] theorem csUpdate_cr1 (s : State) : s.csUpdate.cr1 = s.cr1 := rfl
@[simp] theorem csUpdate_cr2 (s : State) : s.csUpdate.cr2 = s.cr2 := rfl
@[simp] theorem csUpdate_sr (s : State) : s.csUpdate.sr = s.sr := rfl
@[simp] theorem csUpdate_csctrl (s : State) : s.csUpdate.csctrl = s.csctrl := rfl
@[simp] theorem csUpdate_txq (s : State) : s.csUpdate.txq = s.txq := rfl
@[simp] theorem csUpdate_rxq (s : State) : s.csUpdate.rxq = s.rxq := rfl
@[simp] theorem csUpdate_irq (s : State) : s.csUpdate.irq = s.irq := rfl
@[simp] theorem csUpdate_csN (s : State) : s.csUpdate.csN = csLines s.csctrl := rfl
@[simp] theorem csUpdate_rdata (s : State) : s.csUpdate.rdata = s.rdata := rfl
@[simp] theorem csUpdate_params (s : State) : s.csUpdate.params = s.params := rfl
@[simp] theorem csUpdate_pending (s : State) : s.csUpdate.pending = s.pending := rfl
@[simp] theorem csUpdate_replies (s : State) : s.csUpdate.replies = s.replies := rfl
@[simp] theorem csUpdate_trace (s : State) : s.csUpdate.trace = s.trace ++ csEvents s.csN (csLines s.csctrl) := rfl

@[simp] theorem applyReset_cr1 (s : State) : s.applyReset.cr1 = cr1Reset := rfl
@[simp] theorem applyReset_cr2 (s : State) : s.applyReset.cr2 = cr2Reset := rfl
@[simp] theorem applyReset_sr (s : State) : s.applyReset.sr = srReset := rfl
@[simp] theorem applyReset_csctrl (s : State) : s.applyReset.csctrl = csctrlReset := rfl
@[simp] theorem applyReset_txq (s : State) : s.applyReset.txq = [] := rfl
@[simp] theorem applyReset_rxq (s : State) : s.applyReset.rxq = [] := rfl
@[simp] theorem applyReset_irq (s : State) : s.applyReset.irq = irqReset := by
  simp only [applyReset, irqUpdate_irq, csUpdate_sr, csUpdate_cr2]; decide
@[simp] theorem applyReset_csN (s : State) : s.applyReset.csN = csNReset := by
  show csLines csctrlReset = csNReset; decide
@[simp] theorem applyReset_rdata (s : State) : s.applyReset.rdata = none := rfl
@[simp] theorem applyReset_params (s : State) : s.applyReset.params = s.params := rfl
@[simp] theorem applyReset_pending (s : State) : s.applyReset.pending = s.pending := rfl
@[simp] theorem applyReset_replies (s : State) : s.applyReset.replies = s.replies := rfl
@[simp] theorem applyReset_trace (s : State) : s.applyReset.trace = s.trace ++ csEvents s.csN (csLines csctrlReset) ++ irqEvents s.irq (irqLevel srReset cr2Reset) := rfl

@[simp] theorem afterTransfer_cr1 (s : State) (out : Byte) : (s.afterTransfer out).cr1 = s.cr1 := rfl
@[simp] theorem afterTransfer_cr2 (s : State) (out : Byte) : (s.afterTransfer out).cr2 = s.cr2 := rfl
@[simp] theorem afterTransfer_sr (s : State) (out : Byte) : (s.afterTransfer out).sr = s.sr := rfl
@[simp] theorem afterTransfer_csctrl (s : State) (out : Byte) : (s.afterTransfer out).csctrl = s.csctrl := rfl
@[simp] theorem afterTransfer_txq (s : State) (out : Byte) : (s.afterTransfer out).txq = s.txq := rfl
@[simp] theorem afterTransfer_rxq (s : State) (out : Byte) : (s.afterTransfer out).rxq = s.rxq := rfl
@[simp] theorem afterTransfer_irq (s : State) (out : Byte) : (s.afterTransfer out).irq = s.irq := rfl
@[simp] theorem afterTransfer_csN (s : State) (out : Byte) : (s.afterTransfer out).csN = s.csN := rfl
@[simp] theorem afterTransfer_rdata (s : State) (out : Byte) : (s.afterTransfer out).rdata = s.rdata := rfl
@[simp] theorem afterTransfer_params (s : State) (out : Byte) : (s.afterTransfer out).params = s.params := rfl
@[simp] theorem afterTransfer_pending (s : State) (out : Byte) : (s.afterTransfer out).pending = s.pending := rfl
@[simp] theorem afterTransfer_replies (s : State) (out : Byte) : (s.afterTransfer out).replies = s.replies.tail := rfl
@[simp] theorem afterTransfer_trace (s : State) (out : Byte) : (s.afterTransfer out).trace = s.trace ++ [.transfer out (s.reply out)] := rfl

@[simp] theorem receive_cr1 (s : State) (r : Byte) : (s.receive r).cr1 = s.cr1 := by
  unfold receive; split <;> rfl
@[simp] theorem receive_cr2 (s : State) (r : Byte) : (s.receive r).cr2 = s.cr2 := by
  unfold receive; split <;> rfl
@[simp] theorem receive_sr (s : State) (r : Byte) : (s.receive r).sr = s.sr := by
  unfold receive; split <;> rfl
@[simp] theorem receive_csctrl (s : State) (r : Byte) : (s.receive r).csctrl = s.csctrl := by
  unfold receive; split <;> rfl
@[simp] theorem receive_txq (s : State) (r : Byte) : (s.receive r).txq = s.txq := by
  unfold receive; split <;> rfl
theorem receive_rxq (s : State) (r : Byte) : (s.receive r).rxq = push s.rxq r := by
  unfold receive push; split <;> simp_all
@[simp] theorem receive_irq (s : State) (r : Byte) : (s.receive r).irq = s.irq := by
  unfold receive; split <;> rfl
@[simp] theorem receive_csN (s : State) (r : Byte) : (s.receive r).csN = s.csN := by
  unfold receive; split <;> rfl
@[simp] theorem receive_rdata (s : State) (r : Byte) : (s.receive r).rdata = s.rdata := by
  unfold receive; split <;> rfl
@[simp] theorem receive_params (s : State) (r : Byte) : (s.receive r).params = s.params := by
  unfold receive; split <;> rfl
@[simp] theorem receive_pending (s : State) (r : Byte) : (s.receive r).pending = s.pending := by
  unfold receive; split <;> rfl
@[simp] theorem receive_replies (s : State) (r : Byte) : (s.receive r).replies = s.replies := by
  unfold receive; split <;> rfl
@[simp] theorem receive_trace (s : State) (r : Byte) : (s.receive r).trace = s.trace := by
  unfold receive; split <;> rfl

end Sys2Proof.Machine.State
end

