-- ==== Sys2Proof/Laws/Ops.lean ====
section
/-! SUPPORT. For each shared operation, one lemma that says everything it can do: push and pop, the events of an output update, one exchange, the drain loop, Flush. -/

namespace Sys2Proof.Machine

@[simp] theorem push_room {q : List Byte} (h : q.length < fifoDepth) (b : Byte) : push q b = q ++ [b] := by
  simp [push, h]

@[simp] theorem push_full {q : List Byte} (h : ¬ q.length < fifoDepth) (b : Byte) : push q b = q := by
  simp [push, h]

/-- A push never takes a queue over its capacity. -/
theorem push_length_le {q : List Byte} (h : q.length ≤ fifoDepth) (b : Byte) : (push q b).length ≤ fifoDepth := by
  by_cases hq : q.length < fifoDepth
  · rw [push_room hq, List.length_append, List.length_singleton]; omega
  · rw [push_full hq]; exact h

@[simp] theorem sameRegisters_iff (s t : State) :
    SameRegisters s t ↔ t.cr1 = s.cr1 ∧ t.cr2 = s.cr2 ∧ t.sr = s.sr ∧ t.csctrl = s.csctrl := Iff.rfl
@[simp] theorem sameQueues_iff (s t : State) : SameQueues s t ↔ t.txq = s.txq ∧ t.rxq = s.rxq := Iff.rfl
@[simp] theorem sameBus_iff (s t : State) : SameBus s t ↔ t.params = s.params ∧ t.pending = s.pending := Iff.rfl
@[simp] theorem onlyIrqDriven_iff (s t : State) :
    OnlyIrqDriven s t ↔ t.csN = s.csN ∧ t.replies = s.replies ∧ t.irq = irqLevel t.sr t.cr2 ∧
      t.trace = s.trace ++ irqEvents s.irq t.irq := Iff.rfl
@[simp] theorem irqKept_iff (s t : State) :
    IrqKept s t ↔ (s.irq = irqLevel s.sr s.cr2 → t.irq = s.irq ∧ t.trace = s.trace) := Iff.rfl

/-- Driving the level from a state that already has it is no event. -/
theorem irqEvents_kept {s : State} (h : s.irq = irqLevel s.sr s.cr2) : irqEvents s.irq (irqLevel s.sr s.cr2) = [] := by
  rw [← h]; simp [irqEvents]

@[simp] theorem irqEvents_same (l : BitVec 2) : irqEvents l l = [] := by simp [irqEvents]
@[simp] theorem csEvents_same (l : BitVec 4) : csEvents l l = [] := by simp [csEvents]

@[simp] theorem sentBytes_append (a b : List Event) : sentBytes (a ++ b) = sentBytes a ++ sentBytes b := by
  induction a with
  | nil => rfl
  | cons e a ih => cases e <;> simp [sentBytes, ih]

@[simp] theorem sentBytes_irqEvents (o n : BitVec 2) : sentBytes (irqEvents o n) = [] := by
  unfold irqEvents; split <;> rfl

@[simp] theorem sentBytes_csEvents (o n : BitVec 4) : sentBytes (csEvents o n) = [] := by
  unfold csEvents; split <;> rfl

/-- The bytes handed over in a row of calls, when each has its reply. -/
theorem sentBytes_zipWith (bs rs : List Byte) (h : rs.length = bs.length) :
    sentBytes (List.zipWith Event.transfer bs rs) = bs := by
  induction bs generalizing rs with
  | nil => simp [sentBytes]
  | cons b bs ih =>
    cases rs with
    | nil => simp at h
    | cons r rs => simp [sentBytes, ih rs (by simpa using h)]

/-- A push followed by what still fits is what fits of the whole: the fullness test is made afresh for each byte (R104 property c). -/
theorem push_append_take (q : List Byte) (r : Byte) (rs : List Byte) :
    push q r ++ rs.take (fifoDepth - (push q r).length) = q ++ (r :: rs).take (fifoDepth - q.length) := by
  by_cases h : q.length < fifoDepth
  · obtain ⟨m, hm⟩ : ∃ m, fifoDepth - q.length = m + 1 := ⟨fifoDepth - q.length - 1, by omega⟩
    have hm' : fifoDepth - (q.length + 1) = m := by omega
    rw [push_room h, List.length_append, List.length_singleton, hm', hm, List.take_succ_cons, List.append_assoc]
    rfl
  · have hm : fifoDepth - q.length = 0 := by omega
    rw [push_full h, hm, List.take_zero, List.take_zero]

/-- One turn of the drain loop: the call is made and seen, and the reply queued if it fits (R104). -/
theorem exchange_eq (s : State) (out : Byte) :
    s.exchange out =
      { s with
        rxq := push s.rxq (s.reply out)
        replies := s.replies.tail
        trace := s.trace ++ [.transfer out (s.reply out)] } := by
  unfold State.exchange State.receive
  split
  · rfl
  · next h => rw [push_full (by simpa using h)]; rfl

/-- Everything the drain loop does (R104 properties a to d): one call per byte, in order, each with one reply; the replies laid
down by the outside are used first; RXQ takes as many replies as it has room for; nothing else changes but TXQ. -/
theorem drain_spec (q : List Byte) (s : State) :
    ∃ rs : List Byte, rs.length = q.length ∧
      rs.take s.replies.length = s.replies.take q.length ∧
      State.drain q s =
        { s with
          txq := if q = [] then s.txq else []
          rxq := s.rxq ++ rs.take (fifoDepth - s.rxq.length)
          replies := s.replies.drop q.length
          trace := s.trace ++ List.zipWith Event.transfer q rs } := by
  induction q generalizing s with
  | nil => exact ⟨[], by simp [State.drain]⟩
  | cons b q ih =>
    obtain ⟨rs, hlen, htake, hd⟩ := ih ((s.setTxq q).exchange b)
    have hrep : (s.setTxq q).reply b = s.reply b := rfl
    have htx : (if q = [] then q else ([] : List Byte)) = [] := by split <;> simp_all
    rw [exchange_eq, hrep] at hd htake
    simp only [State.setTxq_replies, State.setTxq_txq, State.setTxq_rxq, State.setTxq_trace, htx, push_append_take] at hd htake
    refine ⟨s.reply b :: rs, by simp [hlen], ?_, ?_⟩
    · cases hr : s.replies with
      | nil => simp
      | cons r rest => simpa [State.reply, hr] using htake
    · rw [State.drain, exchange_eq, hrep, State.setTxq_replies, State.setTxq_rxq, State.setTxq_trace, State.setTxq_txq, hd]
      simp [State.setTxq]

/-- Everything `Flush()` does (R104): the drain of the whole of TXQ, then TXE set and RXNE recomputed. -/
theorem flush_spec (s : State) :
    ∃ rs : List Byte, rs.length = s.txq.length ∧
      rs.take s.replies.length = s.replies.take s.txq.length ∧
      s.flush =
        { s with
          txq := []
          rxq := s.rxq ++ rs.take (fifoDepth - s.rxq.length)
          sr := if 0 < (s.rxq ++ rs.take (fifoDepth - s.rxq.length)).length then setBit rxne (setBit txe s.sr)
                else clearBit rxne (setBit txe s.sr)
          replies := s.replies.drop s.txq.length
          trace := s.trace ++ List.zipWith Event.transfer s.txq rs } := by
  obtain ⟨rs, hlen, htake, hd⟩ := drain_spec s.txq s
  refine ⟨rs, hlen, htake, ?_⟩
  rw [State.flush, hd]
  have htx : (if s.txq = [] then s.txq else ([] : List Byte)) = [] := by split <;> simp_all
  simp only [State.markTxe, State.markRxne, State.setSr, htx, List.length_nil, if_true]
  split <;> rfl

end Sys2Proof.Machine
end

