-- ==== Sys2Proof/Laws/Exec.lean ====
section
/-! SUPPORT. One equation per access: what `exec` answers, in terms of the shared operations. Every access answers a next state (R140). -/

namespace Sys2Proof.Machine

theorem exec_rdCr1 (s : State) : exec .rdCr1 s = .next (s.setRdata (some s.cr1)).irqUpdate := rfl
theorem exec_wrCr1 (w : Word) (s : State) :
    exec (.wrCr1 w) s = .next ((s.setCr1 (cr1Operand w)).setRdata none).irqUpdate := rfl
theorem exec_rdCr2 (s : State) : exec .rdCr2 s = .next (s.setRdata (some s.cr2)).irqUpdate := rfl
theorem exec_wrCr2 (w : Word) (s : State) :
    exec (.wrCr2 w) s = .next ((s.setCr2 (cr2Operand s.params w)).setRdata none).irqUpdate := rfl
theorem exec_rdSr (s : State) : exec .rdSr s = .next (s.setRdata (some s.sr)).irqUpdate := rfl
theorem exec_wrSr (w : Word) (s : State) :
    exec (.wrSr w) s = .next ((s.setSr (srAfterWrite w s.sr)).setRdata none).irqUpdate := rfl
theorem exec_rdCsctrl (s : State) : exec .rdCsctrl s = .next (s.setRdata (some s.csctrl)).irqUpdate := rfl
theorem exec_wrCsctrl (w : Word) (s : State) :
    exec (.wrCsctrl w) s = .next ((s.setCsctrl (csctrlOperand w)).csUpdate.setRdata none).irqUpdate := rfl

/-- RD_DR on an empty RXQ (R106, R141). -/
theorem exec_rdDr_empty {s : State} (h : s.rxq = []) :
    exec .rdDr s = .next (((s.setSr (clearBit rxne (setBit ovr s.sr))).setRdata (some 0)).irqUpdate) := by
  simp [exec, execRdDr, takeByte, h, pop, clearRxneIfEmpty, State.endRead, State.setSr, State.setRdata]

/-- RD_DR takes the oldest byte (R106). -/
theorem exec_rdDr_byte {s : State} {b : Byte} {q : List Byte} (h : s.rxq = b :: q) :
    exec .rdDr s = .next ((((s.setRxq q).setSr (if q = [] then clearBit rxne s.sr else s.sr)).setRdata
      (some (zext32 b))).irqUpdate) := by
  cases q <;>
    simp [exec, execRdDr, takeByte, h, pop, clearRxneIfEmpty, State.endRead, State.setSr, State.setRxq, State.setRdata]

/-- WR_DR with room in TXQ (R105): push, clear TXE, flush. -/
theorem exec_wrDr_room {s : State} (h : s.txq.length < fifoDepth) (w : Word) :
    exec (.wrDr w) s =
      .next ((((s.setTxq (s.txq ++ [drOperand w])).setSr (clearBit txe s.sr)).flush).setRdata none).irqUpdate := by
  simp [exec, execWrDr, h, State.endWrite]

/-- WR_DR with TXQ full (R105, R142). -/
theorem exec_wrDr_full {s : State} (h : ¬ s.txq.length < fifoDepth) (w : Word) :
    exec (.wrDr w) s = .next ((s.setSr (setBit txovf s.sr)).setRdata none).irqUpdate := by
  simp [exec, execWrDr, h, State.endWrite]

theorem exec_rdRsvd14 (s : State) : exec .rdRsvd14 s = .next (s.setRdata (some 0)).irqUpdate := rfl
theorem exec_rdRsvd18 (o : Offset) (s : State) : exec (.rdRsvd18 o) s = .next (s.setRdata (some 0)).irqUpdate := rfl
theorem exec_rdRsvd20 (o : Offset) (s : State) : exec (.rdRsvd20 o) s = .next (s.setRdata (some 0)).irqUpdate := rfl
theorem exec_rdRsvd40 (o : Offset) (s : State) : exec (.rdRsvd40 o) s = .next (s.setRdata (some 0)).irqUpdate := rfl
theorem exec_rdRsvd80 (o : Offset) (s : State) : exec (.rdRsvd80 o) s = .next (s.setRdata (some 0)).irqUpdate := rfl
theorem exec_wrRsvd14 (w : Word) (s : State) : exec (.wrRsvd14 w) s = .next (s.setRdata none).irqUpdate := rfl
theorem exec_wrRsvd18 (o : Offset) (w : Word) (s : State) : exec (.wrRsvd18 o w) s = .next (s.setRdata none).irqUpdate := rfl
theorem exec_wrRsvd20 (o : Offset) (w : Word) (s : State) : exec (.wrRsvd20 o w) s = .next (s.setRdata none).irqUpdate := rfl
theorem exec_wrRsvd40 (o : Offset) (w : Word) (s : State) : exec (.wrRsvd40 o w) s = .next (s.setRdata none).irqUpdate := rfl
theorem exec_wrRsvd80 (o : Offset) (w : Word) (s : State) : exec (.wrRsvd80 o w) s = .next (s.setRdata none).irqUpdate := rfl

/-- Everything WR_DR does with room in TXQ, as one state: the queued bytes and the new one go out in order; the reply list answers
first; RXQ takes what it has room for; TXE and RXNE end set (R105 with R104 property f). -/
theorem exec_wrDr_room_spec {s : State} (h : s.txq.length < fifoDepth) (w : Word) :
    ∃ rs : List Byte, rs.length = s.txq.length + 1 ∧
      rs.take s.replies.length = s.replies.take (s.txq.length + 1) ∧
      exec (.wrDr w) s = .next
        { s with
          txq := []
          rxq := s.rxq ++ rs.take (fifoDepth - s.rxq.length)
          sr := setBit rxne (setBit txe (clearBit txe s.sr))
          rdata := none
          replies := s.replies.drop (s.txq.length + 1)
          irq := irqLevel (setBit rxne (setBit txe (clearBit txe s.sr))) s.cr2
          trace := s.trace ++ List.zipWith Event.transfer (s.txq ++ [drOperand w]) rs ++
            irqEvents s.irq (irqLevel (setBit rxne (setBit txe (clearBit txe s.sr))) s.cr2) } := by
  obtain ⟨rs, hlen, htake, hf⟩ := flush_spec ((s.setTxq (s.txq ++ [drOperand w])).setSr (clearBit txe s.sr))
  simp only [State.setSr_txq, State.setTxq_txq, List.length_append, List.length_singleton, State.setSr_replies,
    State.setTxq_replies, State.setSr_rxq, State.setTxq_rxq, State.setSr_sr, State.setSr_trace, State.setTxq_trace] at hlen htake hf
  refine ⟨rs, hlen, htake, ?_⟩
  have hpos : 0 < s.rxq.length + (rs.take (fifoDepth - s.rxq.length)).length := by
    simp only [List.length_take, fifoDepth]; omega
  rw [exec_wrDr_room h, hf, if_pos hpos]
  rfl

/-- The accesses that change no register, queue or line: all reads but that of DR, and all reserved accesses (R47, R131). -/
def isQuiet : Instr → Bool
  | .rdCr1 | .rdCr2 | .rdSr | .rdCsctrl => true
  | .rdRsvd14 | .rdRsvd18 _ | .rdRsvd20 _ | .rdRsvd40 _ | .rdRsvd80 _ => true
  | .wrRsvd14 _ | .wrRsvd18 _ _ | .wrRsvd20 _ _ | .wrRsvd40 _ _ | .wrRsvd80 _ _ => true
  | .wrCr1 _ | .wrCr2 _ | .wrSr _ | .rdDr | .wrDr _ | .wrCsctrl _ => false

/-- What an access can do, said once: the next state of each kind of access. -/
theorem exec_cases {i : Instr} {s t : State} (h : exec i s = .next t) :
    (isQuiet i = true ∧ ∃ r, t = (s.setRdata r).irqUpdate) ∨
    (∃ w, i = .wrCr1 w ∧ t = ((s.setCr1 (cr1Operand w)).setRdata none).irqUpdate) ∨
    (∃ w, i = .wrCr2 w ∧ t = ((s.setCr2 (cr2Operand s.params w)).setRdata none).irqUpdate) ∨
    (∃ w, i = .wrSr w ∧ t = ((s.setSr (srAfterWrite w s.sr)).setRdata none).irqUpdate) ∨
    (∃ w, i = .wrCsctrl w ∧ t = ((s.setCsctrl (csctrlOperand w)).csUpdate.setRdata none).irqUpdate) ∨
    (i = .rdDr ∧ s.rxq = [] ∧ t = ((s.setSr (clearBit rxne (setBit ovr s.sr))).setRdata (some 0)).irqUpdate) ∨
    (∃ b q, i = .rdDr ∧ s.rxq = b :: q ∧
      t = (((s.setRxq q).setSr (if q = [] then clearBit rxne s.sr else s.sr)).setRdata (some (zext32 b))).irqUpdate) ∨
    (∃ w, i = .wrDr w ∧ ¬ s.txq.length < fifoDepth ∧ t = ((s.setSr (setBit txovf s.sr)).setRdata none).irqUpdate) ∨
    (∃ w rs, i = .wrDr w ∧ s.txq.length < fifoDepth ∧ rs.length = s.txq.length + 1 ∧
      rs.take s.replies.length = s.replies.take (s.txq.length + 1) ∧
      t =
        { s with
          txq := []
          rxq := s.rxq ++ rs.take (fifoDepth - s.rxq.length)
          sr := setBit rxne (setBit txe (clearBit txe s.sr))
          rdata := none
          replies := s.replies.drop (s.txq.length + 1)
          irq := irqLevel (setBit rxne (setBit txe (clearBit txe s.sr))) s.cr2
          trace := s.trace ++ List.zipWith Event.transfer (s.txq ++ [drOperand w]) rs ++
            irqEvents s.irq (irqLevel (setBit rxne (setBit txe (clearBit txe s.sr))) s.cr2) }) := by
  cases i
  case wrCr1 w => injection h with h; exact .inr (.inl ⟨w, rfl, h.symm⟩)
  case wrCr2 w => injection h with h; exact .inr (.inr (.inl ⟨w, rfl, h.symm⟩))
  case wrSr w => injection h with h; exact .inr (.inr (.inr (.inl ⟨w, rfl, h.symm⟩)))
  case wrCsctrl w => injection h with h; exact .inr (.inr (.inr (.inr (.inl ⟨w, rfl, h.symm⟩))))
  case rdDr =>
    cases hr : s.rxq with
    | nil =>
      rw [exec_rdDr_empty hr] at h; injection h with h
      exact .inr (.inr (.inr (.inr (.inr (.inl ⟨rfl, rfl, h.symm⟩)))))
    | cons b q =>
      rw [exec_rdDr_byte hr] at h; injection h with h
      exact .inr (.inr (.inr (.inr (.inr (.inr (.inl ⟨b, q, rfl, rfl, h.symm⟩))))))
  case wrDr w =>
    by_cases hr : s.txq.length < fifoDepth
    · obtain ⟨rs, hl, ht, he⟩ := exec_wrDr_room_spec hr w
      rw [he] at h; injection h with h
      exact .inr (.inr (.inr (.inr (.inr (.inr (.inr (.inr ⟨w, rs, rfl, hr, hl, ht, h.symm⟩)))))))
    · rw [exec_wrDr_full hr] at h; injection h with h
      exact .inr (.inr (.inr (.inr (.inr (.inr (.inr (.inl ⟨w, rfl, hr, h.symm⟩)))))))
  all_goals (injection h with h; exact .inl ⟨rfl, _, h.symm⟩)

end Sys2Proof.Machine
end

