-- ==== Sys2Proof/Laws/Step.lean ====
section
/-! SUPPORT. What one step can do, said once: idle, reset, or one access. -/

namespace Sys2Proof.Machine

/-- If a step answers a next state, then no event was waiting, or reset was applied, or one access was performed. -/
theorem step_cases {s t : State} (h : step s = .next t) :
    (s.pending = [] ∧ t = s) ∨
    (∃ rest, s.pending = .reset :: rest ∧ t = (s.setPending rest).applyReset) ∨
    (∃ a rest i, s.pending = .access a :: rest ∧ fetchInstr s.params a = .ok i ∧ exec i (s.setPending rest) = .next t) := by
  unfold step at h
  split at h
  · next hp => injection h with h; exact .inl ⟨hp, h.symm⟩
  · next rest hp => injection h with h; exact .inr (.inl ⟨rest, hp, h.symm⟩)
  · next a rest hp =>
    split at h
    · next i hi => exact .inr (.inr ⟨a, rest, i, hp, hi, h⟩)
    · cases h

/-- An access inside the window, of four bytes, aligned, is decoded by its command word (R6, R62). -/
theorem fetchInstr_ok {p : Params} {a : Access} (hlo : p.base ≤ a.addr) (hhi : a.addr < p.base + windowSize)
    (hn : a.size = accessBytes) (hal : a.addr % 4 = 0) {i : Instr} (hd : decodeAccess (a.command p) a.wdata = .ok i) :
    fetchInstr p a = .ok i := by
  unfold fetchInstr
  rw [if_neg (by omega), if_neg (by simpa using hn), if_neg (by omega), hd]

/-- A run whose first step answers a next state goes on from there. -/
theorem run_succ (M : Host.Core) {s t : M.State} (h : M.step s = .next t) (k : Nat) : M.run (k + 1) s = M.run k t := by
  simp only [Host.Core.run, h]

/-- A run of `j + k` steps is a run of `k` steps from where `j` steps end. -/
theorem run_add (M : Host.Core) {s t : M.State} {j : Nat} (h : M.run j s = .next t) (k : Nat) :
    M.run (j + k) s = M.run k t := by
  induction j generalizing s with
  | zero => injection h with h; rw [Nat.zero_add, h]
  | succ j ih =>
    rw [Nat.succ_add]
    cases hs : M.step s with
    | next u => rw [run_succ M hs] at h ⊢; exact ih h
    | fault r => simp only [Host.Core.run, hs] at h; cases h
    | refused r => simp only [Host.Core.run, hs] at h; cases h

/-- `run_succ` for this machine, whose step is `step`. -/
theorem run_next {s t : State} (h : step s = .next t) (k : Nat) : Sys2Proof.core.run (k + 1) s = Sys2Proof.core.run k t :=
  run_succ Sys2Proof.core h k

end Sys2Proof.Machine
end

