-- ==== Sys2Proof/Tests/Slice0.lean ====
section
/-! SUPPORT. The model's own tests: expected values are those of 95_test_vectors.md (its ids stand at each test) and of R65's table; and for every statement with hypotheses, a concrete state and operands that meet them. -/

open Sys2Proof Sys2Proof.Machine

namespace Sys2Proof.Tests

/-! Well-formedness: one ill-formed term for each check of each row that has an operand to check (below the range, above it, not a
multiple of 4), refused; and the ends of each range, accepted. -/

theorem test_wf_refuses_rdRsvd18 :
    Instr.wf (.rdRsvd18 0x14) = false ∧ Instr.wf (.rdRsvd18 0x20) = false ∧ Instr.wf (.rdRsvd18 0x19) = false := by decide
theorem test_wf_refuses_rdRsvd20 :
    Instr.wf (.rdRsvd20 0x1C) = false ∧ Instr.wf (.rdRsvd20 0x40) = false ∧ Instr.wf (.rdRsvd20 0x22) = false := by decide
theorem test_wf_refuses_rdRsvd40 :
    Instr.wf (.rdRsvd40 0x3C) = false ∧ Instr.wf (.rdRsvd40 0x80) = false ∧ Instr.wf (.rdRsvd40 0x43) = false := by decide
theorem test_wf_refuses_rdRsvd80 : Instr.wf (.rdRsvd80 0x7C) = false ∧ Instr.wf (.rdRsvd80 0xFD) = false := by decide
theorem test_wf_refuses_wrRsvd18 :
    Instr.wf (.wrRsvd18 0x14 0) = false ∧ Instr.wf (.wrRsvd18 0x20 0) = false ∧ Instr.wf (.wrRsvd18 0x1D 0) = false := by decide
theorem test_wf_refuses_wrRsvd20 :
    Instr.wf (.wrRsvd20 0x1C 0) = false ∧ Instr.wf (.wrRsvd20 0x40 0) = false ∧ Instr.wf (.wrRsvd20 0x3E 0) = false := by decide
theorem test_wf_refuses_wrRsvd40 :
    Instr.wf (.wrRsvd40 0x3C 0) = false ∧ Instr.wf (.wrRsvd40 0x80 0) = false ∧ Instr.wf (.wrRsvd40 0x7F 0) = false := by decide
theorem test_wf_refuses_wrRsvd80 : Instr.wf (.wrRsvd80 0x7C 0) = false ∧ Instr.wf (.wrRsvd80 0xFE 0) = false := by decide
theorem test_wf_accepts_range_ends :
    Instr.wf (.rdRsvd18 0x18) = true ∧ Instr.wf (.rdRsvd18 0x1C) = true ∧ Instr.wf (.wrRsvd20 0x20 0) = true ∧
    Instr.wf (.wrRsvd20 0x3C 0) = true ∧ Instr.wf (.rdRsvd40 0x40) = true ∧ Instr.wf (.rdRsvd40 0x7C) = true ∧
    Instr.wf (.wrRsvd80 0x80 0) = true ∧ Instr.wf (.wrRsvd80 0xFC 0) = true := by decide

/-- The constants of R4. -/
theorem test_constants :
    xlenReg = 32 ∧ fifoDepth = 8 ∧ frameBits = 8 ∧ nCs = 4 ∧ irqMax = 3 ∧ windowSize = 0x100 ∧ nWords = 64 ∧ nRegs = 5 ∧
    offCsctrl = 0x10 ∧ cr1Wmask = 0x44 ∧ cr2Wmask .wide = 0xF0 ∧ cr2Wmask .narrow = 0x40 ∧ srW1cMask = 0xC ∧ drWmask = 0xFF ∧
    csctrlWmask = 0xFF ∧ srReset = 2 := by decide

/-! Decoding: for every row a command word written out bit by bit as W, OFFSET[7:2], 00 (R61, R65; the words of V30 among them). -/

theorem test_decode_rdCr1 : decodeTableWord 16 0b0_000000_00 = some .rdCr1 := by decide           -- V30-1
theorem test_decode_wrCr1 : decodeTableWord 48 0xFFFFFFBB_0100 = some (.wrCr1 0xFFFFFFBB) := by decide
theorem test_decode_rdCr2 : decodeTableWord 16 0b0_000001_00 = some .rdCr2 := by decide
theorem test_decode_wrCr2 : decodeTableWord 16 0b1_000001_00 = some (.wrCr2 0) := by decide       -- V30-2
theorem test_decode_rdSr : decodeTableWord 16 0b0_000010_00 = some .rdSr := by decide             -- V30-3
theorem test_decode_wrSr : decodeTableWord 48 0x0000000C_0108 = some (.wrSr 0x0C) := by decide    -- V30-4, S7
theorem test_decode_rdDr : decodeTableWord 16 0b0_000011_00 = some .rdDr := by decide             -- V30-5
theorem test_decode_wrDr : decodeTableWord 48 0x0000005A_010C = some (.wrDr 0x5A) := by decide    -- V30-6, S1
theorem test_decode_rdCsctrl : decodeTableWord 16 0b0_000100_00 = some .rdCsctrl := by decide
theorem test_decode_wrCsctrl : decodeTableWord 48 0xFFFFFF11_0110 = some (.wrCsctrl 0xFFFFFF11) := by decide   -- V30-7, V43-17
theorem test_decode_rdRsvd14 : decodeTableWord 16 0b0_000101_00 = some .rdRsvd14 := by decide     -- V30-8
theorem test_decode_rdRsvd18 : decodeTableWord 16 0b0_000111_00 = some (.rdRsvd18 0x1C) := by decide   -- V30-9
theorem test_decode_rdRsvd20 : decodeTableWord 16 0b0_001111_00 = some (.rdRsvd20 0x3C) := by decide   -- V30-10
theorem test_decode_rdRsvd40 : decodeTableWord 16 0b0_011111_00 = some (.rdRsvd40 0x7C) := by decide   -- V30-11
theorem test_decode_rdRsvd80 : decodeTableWord 16 0b0_111111_00 = some (.rdRsvd80 0xFC) := by decide   -- V30-12
theorem test_decode_wrRsvd14 : decodeTableWord 48 0xFFFFFFFF_0114 = some (.wrRsvd14 0xFFFFFFFF) := by decide   -- V44-2
theorem test_decode_wrRsvd18 : decodeTableWord 16 0b1_000110_00 = some (.wrRsvd18 0x18 0) := by decide -- V30-14
theorem test_decode_wrRsvd20 : decodeTableWord 16 0b1_001000_00 = some (.wrRsvd20 0x20 0) := by decide
theorem test_decode_wrRsvd40 : decodeTableWord 16 0b1_010000_00 = some (.wrRsvd40 0x40 0) := by decide
theorem test_decode_wrRsvd80 : decodeTableWord 48 0x12345678_0180 = some (.wrRsvd80 0x80 0x12345678) := by decide   -- V44-4

/-- Why a decode answers no instruction. -/
def errorOf (r : Except DecodeError (Instr × List Byte)) : Option DecodeError :=
  match r with
  | .ok _ => none
  | .error e => some e

/-- V30-15, V30-16, V30-17: `BYTE != 0` matches no row; a tenth bit is in no command word; a write needs its four lanes. -/
theorem test_decode_refuses :
    errorOf (decode [0x01, 0x00]) = some .illegalCommand ∧ errorOf (decode [0x03, 0x00]) = some .illegalCommand ∧
    errorOf (decode [0x0E, 0x01, 0, 0, 0, 0]) = some .illegalCommand ∧ errorOf (decode [0x00, 0x02]) = some .notACommand ∧
    errorOf (decode [0x0C, 0x01, 0x5A, 0, 0]) = some .truncated ∧ errorOf (decode [0x00]) = some .truncated := by decide

/-- `10C 11223344`: the low lane is at the lowest address (R43). -/
theorem test_encode_lanes : encode (.wrDr 0x11223344) = [0x0C, 0x01, 0x44, 0x33, 0x22, 0x11] := by decide

/-! One access each. A state is written as 95_test_vectors.md writes it. -/

/-- `CR1 CR2 SR CSCTRL TXQ RXQ | IRQ CS_N`, the rest as after reset. -/
def mk (cr1 cr2 sr csctrl : Word) (txq rxq : List Byte) (irq : BitVec 2) (csN : BitVec 4) : State :=
  { State.reset with cr1 := cr1, cr2 := cr2, sr := sr, csctrl := csctrl, txq := txq, rxq := rxq, irq := irq, csN := csN }

/-- The same, with the replies the byte-transport will give. -/
def answered (s : State) (replies : List Byte) : State := { s with replies := replies }

/-- The same, with the mask 0x40 of CR2. -/
def narrow (s : State) : State := { s with params := { s.params with cr2Mask := .narrow } }

/-- The same, with the window at bus address 0x4000 and the events that are to come. -/
def asked (s : State) (events : List BusEvent) : State :=
  { s with params := { s.params with base := 0x4000 }, pending := events }

/-- The next state, if there is one. -/
def nextOf (o : Host.Outcome State Fault Refusal) : Option State :=
  match o with
  | .next s => some s
  | .fault _ => none
  | .refused _ => none

/-- The refusal, if there is one. -/
def refusalOf (o : Host.Outcome State Fault Refusal) : Option Refusal :=
  match o with
  | .next _ => none
  | .fault _ => none
  | .refused r => some r

/-- The state of the vectors and the read data of the next state. -/
def seen (o : Host.Outcome State Fault Refusal) : Option (State × Option Word) :=
  (nextOf o).map fun s => ({ s with rdata := none, trace := [], replies := [] }, s.rdata)

theorem test_rdCr1 : seen (exec .rdCr1 (mk 0x44 0 2 0 [] [] 0 15)) = some (mk 0x44 0 2 0 [] [] 0 15, some 0x44) := by decide   -- S2
theorem test_wrCr1 : seen (exec (.wrCr1 0xFFFFFFFF) State.reset) = some (mk 0x44 0 2 0 [] [] 0 15, none) := by decide   -- S2
theorem test_wrCr1_others : seen (exec (.wrCr1 0xFFFFFFBB) (mk 0x44 0 2 0 [] [] 0 15)) = some (State.reset, none) := by decide   -- V40-3, V40-4
theorem test_rdCr2 : seen (exec .rdCr2 (mk 0 0x20 2 0 [] [] 0 15)) = some (mk 0 0x20 2 0 [] [] 0 15, some 0x20) := by decide   -- V40-13
theorem test_wrCr2_wide : seen (exec (.wrCr2 0xFFFFFFFF) State.reset) = some (mk 0 0xF0 2 0 [] [] 1 15, none) := by decide   -- V40-7
theorem test_wrCr2_narrow :
    seen (exec (.wrCr2 0xFFFFFFFF) (narrow State.reset)) = some (narrow (mk 0 0x40 2 0 [] [] 0 15), none) := by decide   -- V40-8
theorem test_rdSr : seen (exec .rdSr (mk 0 0xE0 6 0 [] [] 3 15)) = some (mk 0 0xE0 6 0 [] [] 3 15, some 6) := by decide   -- V41-1, P3 step 7
theorem test_wrSr : seen (exec (.wrSr 4) (mk 0 0xE0 6 0 [] [] 3 15)) = some (mk 0 0xE0 2 0 [] [] 1 15, none) := by decide   -- V41-12
theorem test_wrSr_all :
    seen (exec (.wrSr 0xFFFFFFFF) (mk 0 0 0xF 0 [] [0x5A] 0 15)) = some (mk 0 0 3 0 [] [0x5A] 0 15, none) := by decide   -- V41-10
theorem test_rdDr : seen (exec .rdDr (mk 0 0 7 0 [] [0xA1, 0xA2] 0 15)) = some (mk 0 0 7 0 [] [0xA2] 0 15, some 0xA1) := by decide   -- V42-11
theorem test_rdDr_empty : seen (exec .rdDr State.reset) = some (mk 0 0 6 0 [] [] 0 15, some 0) := by decide   -- V42-1
theorem test_wrDr : seen (exec (.wrDr 0x5A) (answered State.reset [0xC3])) = some (mk 0 0 3 0 [] [0xC3] 0 15, none) := by decide   -- V42-2
theorem test_wrDr_full : seen (exec (.wrDr 0x39) (mk 0 0x20 0 0 [0x31, 0x32, 0x33, 0x34, 0x35, 0x36, 0x37, 0x38] [] 0 15)) =
    some (mk 0 0x20 8 0 [0x31, 0x32, 0x33, 0x34, 0x35, 0x36, 0x37, 0x38] [] 3 15, none) := by decide   -- V42-7, P5 step 1
theorem test_rdCsctrl :
    seen (exec .rdCsctrl (mk 0 0 2 0x11 [] [] 0 0b1110)) = some (mk 0 0 2 0x11 [] [] 0 0b1110, some 0x11) := by decide   -- V43-18
theorem test_wrCsctrl : seen (exec (.wrCsctrl 0xFFFFFF11) State.reset) = some (mk 0 0 2 0x11 [] [] 0 0b1110, none) := by decide   -- V43-17
theorem test_wrCsctrl_lines : seen (exec (.wrCsctrl 0xF4) State.reset) = some (mk 0 0 2 0xF4 [] [] 0 0b1011, none) := by decide   -- V43-14
theorem test_rdRsvd14 : seen (exec .rdRsvd14 State.reset) = some (State.reset, some 0) := by decide   -- V44-1
theorem test_rdRsvd18 : seen (exec (.rdRsvd18 0x1C) State.reset) = some (State.reset, some 0) := by decide
theorem test_rdRsvd20 : seen (exec (.rdRsvd20 0x20) (mk 0 0x40 3 0x11 [] [0x5A] 2 0b1110)) =
    some (mk 0 0x40 3 0x11 [] [0x5A] 2 0b1110, some 0) := by decide
theorem test_rdRsvd40 : seen (exec (.rdRsvd40 0x40) (mk 0 0x40 3 0x11 [] [0x5A] 2 0b1110)) =
    some (mk 0 0x40 3 0x11 [] [0x5A] 2 0b1110, some 0) := by decide   -- V44-5
theorem test_rdRsvd80 : seen (exec (.rdRsvd80 0xFC) State.reset) = some (State.reset, some 0) := by decide   -- V44-3
theorem test_wrRsvd14 : seen (exec (.wrRsvd14 0xFFFFFFFF) State.reset) = some (State.reset, none) := by decide   -- V44-2
theorem test_wrRsvd18 : seen (exec (.wrRsvd18 0x1C 0x5A) State.reset) = some (State.reset, none) := by decide   -- V44-6
theorem test_wrRsvd20 : seen (exec (.wrRsvd20 0x20 0xFFFFFFFF) (mk 0 0x40 3 0x11 [] [0x5A] 2 0b1110)) =
    some (mk 0 0x40 3 0x11 [] [0x5A] 2 0b1110, none) := by decide   -- V44-5
theorem test_wrRsvd40 : seen (exec (.wrRsvd40 0x40 0xFFFFFFFF) State.reset) = some (State.reset, none) := by decide
theorem test_wrRsvd80 : seen (exec (.wrRsvd80 0x80 0x12345678) State.reset) = some (State.reset, none) := by decide   -- V44-4

/-- V42-10: four bytes are sent, oldest first and the new one last; the first reply fills RXQ, the others are lost. -/
def crowded : State :=
  answered (mk 0 0 1 0 [0x01, 0x02, 0x03] [0xB1, 0xB2, 0xB3, 0xB4, 0xB5, 0xB6, 0xB7] 0 15) [0xC1, 0xC2, 0xC3, 0xC4]

theorem test_flush_loses_replies : seen (exec (.wrDr 0x04) crowded) =
    some (mk 0 0 3 0 [] [0xB1, 0xB2, 0xB3, 0xB4, 0xB5, 0xB6, 0xB7, 0xC1] 0 15, none) := by decide
theorem test_flush_events : (nextOf (exec (.wrDr 0x04) crowded)).map (·.trace) =
    some [.transfer 1 0xC1, .transfer 2 0xC2, .transfer 3 0xC3, .transfer 4 0xC4] := by decide

/-- Three rows of V60-1: the error level wins, then the receive level, then the transmit level. -/
theorem test_irqLevel : irqLevel 0xF 0xE0 = 3 ∧ irqLevel 0x7 0xC0 = 2 ∧ irqLevel 0xE 0x80 = 1 ∧ irqLevel 0xE 0x40 = 0 ∧
    irqLevel 0x8 0x20 = 3 ∧ irqLevel 0xF 0x10 = 0 := by decide

/-! The step. -/

/-- The state of the vectors after a step. -/
def stepped (s : State) : Option (State × Option Word) := seen (step s)

theorem test_step_reads : stepped (asked State.reset [.access (.read 0x4008 4)]) = some (asked State.reset [], some 2) := by decide
theorem test_step_writes : stepped (asked State.reset [.access (.write 0x4000 4 4), .reset]) =
    some (asked (mk 4 0 2 0 [] [] 0 15) [.reset], none) := by decide   -- V40-1
/-- V70-2. -/
theorem test_step_resets : stepped (asked (mk 0x44 0xF0 0xF 0xFF [0x31] [0xE0, 0xE1] 3 0) [.reset]) =
    some (asked State.reset [], none) := by decide
theorem test_step_fetchWord : seen (step (State.reset.withFetchWord 48 0x00000011_0110)) =
    some (mk 0 0 2 0x11 [] [] 0 0b1110, none) := by decide   -- S6
theorem test_step_fetchWord_refused : refusalOf (step (State.reset.withFetchWord 16 0x0003)) = some .misaligned ∧
    refusalOf (step (State.reset.withFetchWord 16 0x0200)) = some .outsideWindow := by decide

/-! Witnesses: for every statement with hypotheses, states and operands that meet them all together, at the ends of each clause's
range. `wit_<Name>` belongs to `Obligations.<Name>`. -/

/-- The instruction a decode answers. -/
def instrOf {ε : Type} (r : Except ε Instr) : Option Instr :=
  match r with
  | .ok i => some i
  | .error _ => none

/-- Whether there is a next state. -/
abbrev Completes (i : Instr) (s : State) : Prop := (nextOf (exec i s)).isSome = true

theorem next_of_completes {i : Instr} {s : State} (h : Completes i s) : ∃ t, exec i s = .next t := by
  unfold Completes at h
  cases he : exec i s with
  | next t => exact ⟨t, rfl⟩
  | fault r => cases r
  | refused r => rw [he] at h; cases h

def full : List Byte := [0x31, 0x32, 0x33, 0x34, 0x35, 0x36, 0x37, 0x38]
def seven : List Byte := [1, 2, 3, 4, 5, 6, 7]
/-- V42-7's state: TXQ full. -/
def jammed : State := mk 0 0 0 0 full [] 0 15
/-- V42-12's state: TXQ one byte short of full. -/
def nearlyFull : State := answered (mk 0 0 0 0 seven [] 0 15) full
/-- V44-5's state: one byte received, the receive interrupt on, line 0 asserted. -/
def busy : State := mk 0 0x40 3 0x11 [] [0x5A] 2 0b1110
/-- V41-12's state: OVR latched, every interrupt on. -/
def alarmed : State := mk 0 0xE0 6 0 [] [] 3 15
/-- The state after reset, with a transport that will answer 0xC3. -/
def ready : State := answered State.reset [0xC3]

theorem wit_PatternsSelectExactlyOneRow : (0x1FC : Command).extractLsb' 0 2 = 0 ∧ (0x1FD : Command).extractLsb' 0 2 ≠ 0 := by decide
theorem wit_DecodeFollowsIndexTable :
    instrOf (decodeAccess (0#1 ++ 0#6 ++ 0#2) 9) = some .rdCr1 ∧ instrOf (decodeAccess (1#1 ++ 1#6 ++ 0#2) 9) = some (.wrCr2 9) ∧
    instrOf (decodeAccess (1#1 ++ 2#6 ++ 0#2) 9) = some (.wrSr 9) ∧ instrOf (decodeAccess (0#1 ++ 3#6 ++ 0#2) 9) = some .rdDr ∧
    instrOf (decodeAccess (1#1 ++ 4#6 ++ 0#2) 9) = some (.wrCsctrl 9) ∧
    instrOf (decodeAccess (0#1 ++ 5#6 ++ 0#2) 9) = some .rdRsvd14 ∧
    instrOf (decodeAccess (0#1 ++ 6#6 ++ 0#2) 9) = some (.rdRsvd18 0x18) ∧
    instrOf (decodeAccess (0#1 ++ 7#6 ++ 0#2) 9) = some (.rdRsvd18 0x1C) ∧
    instrOf (decodeAccess (1#1 ++ 8#6 ++ 0#2) 9) = some (.wrRsvd20 0x20 9) ∧
    instrOf (decodeAccess (1#1 ++ 15#6 ++ 0#2) 9) = some (.wrRsvd20 0x3C 9) ∧
    instrOf (decodeAccess (0#1 ++ 16#6 ++ 0#2) 9) = some (.rdRsvd40 0x40) ∧
    instrOf (decodeAccess (0#1 ++ 31#6 ++ 0#2) 9) = some (.rdRsvd40 0x7C) ∧
    instrOf (decodeAccess (1#1 ++ 32#6 ++ 0#2) 9) = some (.wrRsvd80 0x80 9) ∧
    instrOf (decodeAccess (1#1 ++ 63#6 ++ 0#2) 9) = some (.wrRsvd80 0xFC 9) := by decide
theorem wit_MisalignedCommandsHaveNoInstruction : (0x001 : Command).extractLsb' 0 2 ≠ 0 ∧ (0x10E : Command).extractLsb' 0 2 ≠ 0 ∧
    (0x1FF : Command).extractLsb' 0 2 ≠ 0 := by decide
theorem wit_DecodeOfEncodeIsTheInstruction : (Instr.wrRsvd80 0xFC 0xFFFFFFFF).wf = true ∧ (Instr.rdRsvd18 0x18).wf = true := by decide
theorem wit_DecodedBytesAreTheEncoding : ∃ i rest, decode [0x0C, 0x01, 0x44, 0x33, 0x22, 0x11, 0xAA] = .ok (i, rest) := ⟨_, _, rfl⟩
theorem wit_StepPerformsTheNextAccess : ∃ (s : State) (a : Access) (rest : List BusEvent) (i : Instr),
    s.pending = .access a :: rest ∧ fetchInstr s.params a = .ok i :=
  ⟨asked busy [.access (.read 0x40FC 4), .reset], .read 0x40FC 4, [.reset], .rdRsvd80 0xFC, rfl, rfl⟩
/-- A read and a write: the last word of the window and its first. -/
theorem wit_StepRunsTheEncodedAccess :
    ((Instr.rdRsvd80 0xFC).wf = true ∧ (Instr.rdRsvd80 0xFC).isWrite = false ∧
      (asked busy [.access (.read (0x4000 + 0xFC) 4)]).pending = [.access (.read (0x4000 + (Instr.rdRsvd80 0xFC).offset.toNat) 4)]) ∧
    ((Instr.wrCr1 7).wf = true ∧ (Instr.wrCr1 7).isWrite = true ∧
      (asked busy [.access (.write 0x4000 4 7)]).pending = [.access (.write (0x4000 + (Instr.wrCr1 7).offset.toNat) 4 7)]) ∧
    (asked busy []).params.base % 4 = 0 := by decide
theorem wit_FetchWordRunsTheDecodedInstruction :
    busy.params.base % 4 = 0 ∧ decodeTableWord 48 0x12345678_01FC = some (.wrRsvd80 0xFC 0x12345678) ∧
    decodeTableWord 16 0x0000 = some .rdCr1 := by decide
/-- A read of the first word of the window, and a write of the last. -/
def firstRead : State := asked busy [.access (.read 0x4000 4), .reset]
def lastWrite : State := asked busy [.access (.write 0x40FC 4 7)]
theorem wit_WindowAccessesComplete :
    (firstRead.pending = .access (.read 0x4000 4) :: [.reset] ∧ firstRead.params.base % 4 = 0 ∧
      firstRead.params.base ≤ (Access.read 0x4000 4).addr ∧ (Access.read 0x4000 4).addr < firstRead.params.base + 0x100 ∧
      (Access.read 0x4000 4).addr % 4 = 0 ∧ (Access.read 0x4000 4).size = 4) ∧
    (lastWrite.pending = .access (.write 0x40FC 4 7) :: [] ∧ lastWrite.params.base % 4 = 0 ∧
      lastWrite.params.base ≤ (Access.write 0x40FC 4 7).addr ∧ (Access.write 0x40FC 4 7).addr < lastWrite.params.base + 0x100 ∧
      (Access.write 0x40FC 4 7).addr % 4 = 0 ∧ (Access.write 0x40FC 4 7).size = 4) := by decide
/-- A window that starts at 0x4002. -/
def unaligned (events : List BusEvent) : State :=
  { busy with params := { busy.params with base := 0x4002 }, pending := events }
/-- Each clause: the last word before the window, the first after it; sizes 1, 2, 8; the three misaligned addresses; the first and the last
aligned address of a window whose base is not aligned. -/
theorem wit_AccessesOutsideTheRulesAreRefused :
    refusalOf (step (asked busy [.access (.read 0x3FFC 4)])) = some .outsideWindow ∧
    refusalOf (step (asked busy [.access (.write 0x4100 4 0)])) = some .outsideWindow ∧
    refusalOf (step (asked busy [.access (.read 0x400C 1)])) = some .wrongSize ∧
    refusalOf (step (asked busy [.access (.write 0x400C 2 0)])) = some .wrongSize ∧
    refusalOf (step (asked busy [.access (.read 0x40F8 8)])) = some .wrongSize ∧
    refusalOf (step (asked busy [.access (.read 0x400D 4)])) = some .misaligned ∧
    refusalOf (step (asked busy [.access (.write 0x400E 4 0)])) = some .misaligned ∧
    refusalOf (step (asked busy [.access (.read 0x40FF 4)])) = some .misaligned ∧
    refusalOf (step (unaligned [.access (.read 0x4004 4)])) = some .illegalCommand ∧
    refusalOf (step (unaligned [.access (.write 0x4100 4 0)])) = some .illegalCommand := by decide
theorem wit_StepWithoutEventsIdles : busy.pending = [] := by decide
theorem wit_ResetEventRestoresEveryElement : (asked alarmed [.reset, .reset]).pending = .reset :: [.reset] := by decide
/-- Legal states under both masks, states of R34, and a level that is the function of the registers. -/
theorem wit_ReadCr1ReturnsTheStoredValue : busy.Legal ∧ busy.irq = irqLevel busy.sr busy.cr2 := by decide
theorem wit_ReadCr2ReturnsTheStoredValue : busy.Legal ∧ (narrow busy).Legal := by decide
theorem wit_ReadSrReturnsTheLiveValue : alarmed.Legal ∧ alarmed.Boundary := by decide
theorem wit_ReadCsctrlReturnsTheStoredValue : busy.Legal ∧ busy.csctrl ≠ 0 := by decide
theorem wit_WriteSrClearsTheLatchedFlags : (4 : Nat) ≠ 2 ∧ (4 : Nat) ≠ 3 := by decide
theorem wit_WriteCsctrlDrivesTheLines : (0 : Nat) < 4 ∧ (3 : Nat) < 4 ∧ busy.irq = irqLevel busy.sr busy.cr2 := by decide
/-- The last byte of RXQ, the first of two, and none. -/
theorem wit_ReadDrTakesTheOldestByteOrLatchesOvr :
    busy.rxq = 0x5A :: [] ∧ (mk 0 0 7 0 [] [0xA1, 0xA2] 0 15).rxq = 0xA1 :: [0xA2] ∧ alarmed.rxq = [] := by decide
theorem wit_WriteDrTransmitsTheQueueAndTheByte : ready.txq.length < 8 ∧ nearlyFull.txq.length < 8 := by decide
theorem wit_WriteDrToAFullQueueLatchesTxovf : 8 ≤ jammed.txq.length := by decide
theorem wit_ReservedReadsReturnZero (i : Instr)
    (h : i ∈ [.rdRsvd14, .rdRsvd18 0x1C, .rdRsvd20 0x1C, .rdRsvd40 0x1C, .rdRsvd80 0x1C]) : Completes i busy := by
  revert i; decide
theorem wit_ReservedWritesHaveNoEffect (i : Instr)
    (h : i ∈ [.wrRsvd14 7, .wrRsvd18 0x1C 7, .wrRsvd20 0x1C 7, .wrRsvd40 0x1C 7, .wrRsvd80 0x1C 7]) : Completes i busy := by
  revert i; decide
theorem wit_PushAppendsAtTheTail : ([] : List Byte).length < 8 ∧ seven.length < 8 := by decide
theorem wit_PopTakesTheHead : 0 < ([0x5A] : List Byte).length ∧ 0 < full.length := by decide
theorem wit_FlushDrainsTxqIntoRxq : 0 < crowded.txq.length ∧ 0 < jammed.txq.length := by decide
theorem wit_OverflowAndUnderflowPolicies :
    jammed.txq.length = 8 ∧ ((mk 0 0 3 0 [] full 0 15).txq.length < 8 ∧ (mk 0 0 3 0 [] full 0 15).rxq.length = 8) ∧
    State.reset.rxq = [] ∧ State.reset.txq = [] := by decide
theorem wit_EveryAccessEndsWithTheLevel :
    ((0x2 : Word).extractLsb' 0 4 = (0xF2 : Word).extractLsb' 0 4 ∧ (0xE0 : Word).extractLsb' 5 3 = (0xF0 : Word).extractLsb' 5 3) ∧
    ((0x4 : Word).getLsbD 2 = true ∧ (0x8 : Word).getLsbD 3 = true ∧ (0x20 : Word).getLsbD 5 = true) ∧
    (irqLevel 0xF 0x40 = 2 ∧ irqLevel 0xE 0x80 = 1 ∧ irqLevel 0xD 0x80 = 0) ∧ Completes .rdDr alarmed := by decide
/-- Every branch of the table: an access not named for a flag, a transmitting write, a dropped one, both kinds of DR read, a clear. -/
theorem wit_FlagsChangeAsTabulated : Completes .rdSr busy ∧ Completes (.wrDr 0) ready ∧ Completes (.wrDr 0) jammed ∧
    Completes .rdDr busy ∧ Completes .rdDr alarmed ∧ Completes (.wrSr 0xC) alarmed := by decide
/-- Every element does change, by its own access. -/
theorem wit_OnlyItsOwnAccessChangesAnElement :
    (nextOf (exec (.wrCr1 4) busy)).map (·.cr1) = some 4 ∧ (nextOf (exec (.wrCr2 0) busy)).map (·.cr2) = some 0 ∧
    (nextOf (exec (.wrCsctrl 0) busy)).map (·.csctrl) = some 0 ∧ (nextOf (exec (.wrCsctrl 0) busy)).map (·.csN) = some 15 ∧
    (nextOf (exec (.wrSr 4) alarmed)).map (·.sr) = some 2 ∧ (nextOf (exec .rdDr busy)).map (·.rxq) = some [] ∧
    (nextOf (exec (.wrDr 8) nearlyFull)).map (·.txq) = some [] ∧ (nextOf (exec (.wrDr 8) nearlyFull)).map (·.replies) = some [] := by
  decide
theorem wit_Cr1GatesNothing : Instr.wrDr 0 ≠ .rdCr1 ∧ (∀ w, Instr.wrDr 0 ≠ .wrCr1 w) ∧ ∃ t, exec (.wrDr 0) ready = .next t :=
  ⟨by decide, fun _ h => Instr.noConfusion h, next_of_completes (by decide)⟩
theorem wit_ChipSelectsGateNoTransfer : (∃ t, exec .rdDr busy = .next t) ∧ ∃ t, exec (.wrDr 0) ready = .next t :=
  ⟨next_of_completes (by decide), next_of_completes (by decide)⟩
theorem wit_FullTransmitQueueIsADeadEnd : 8 ≤ jammed.txq.length := by decide
/-- Each of the four accesses does change the level, from a level that is the function of the registers. -/
theorem wit_LevelChangesOnlyByFourAccesses :
    (busy.irq = irqLevel busy.sr busy.cr2 ∧ alarmed.irq = irqLevel alarmed.sr alarmed.cr2) ∧
    (nextOf (exec (.wrCr2 0) busy)).map (·.irq) = some 0 ∧ (nextOf (exec .rdDr busy)).map (·.irq) = some 0 ∧
    (nextOf (exec (.wrSr 4) alarmed)).map (·.irq) = some 1 ∧
    (nextOf (exec (.wrDr 0) (answered (mk 0 0x40 2 0 [] [] 0 15) [0xC3]))).map (·.irq) = some 2 := by decide
/-- Both levels that the mask 0x40 leaves. -/
theorem wit_MaskDecidesWhichLevelsOccur :
    ((narrow busy).Legal ∧ (narrow busy).OutputsAgree ∧ (narrow busy).params.cr2Mask = .narrow ∧ (narrow busy).irq = 2) ∧
    ((narrow State.reset).Legal ∧ (narrow State.reset).OutputsAgree ∧ (narrow State.reset).irq = 0) := by decide
theorem wit_LevelsAreRemovedByTheirAccesses :
    ((0xC : Word).getLsbD 2 = true ∧ (0xC : Word).getLsbD 3 = true) ∧ (busy.rxq.length ≤ 1 ∧ busy.irq = 2) ∧ alarmed.irq = 3 ∧
    (0x60 : Word).getLsbD 7 = false ∧ (0xA0 : Word).getLsbD 6 = false ∧ (0xC0 : Word).getLsbD 5 = false := by decide
theorem wit_TransmitEmptyLevelStays : alarmed.Boundary ∧ alarmed.cr2.getLsbD 7 = true ∧ (∀ w, Instr.rdDr ≠ .wrCr2 w) ∧
    ∃ t, exec .rdDr alarmed = .next t :=
  ⟨by decide, by decide, fun _ h => Instr.noConfusion h, next_of_completes (by decide)⟩
/-- The four shapes: transfers, a dropped byte, lines, neither. -/
theorem wit_EffectsOfAnAccessAreOrdered :
    Completes (.wrDr 8) nearlyFull ∧ Completes (.wrDr 8) jammed ∧ Completes (.wrCsctrl 0) busy ∧ Completes .rdDr busy := by decide
theorem wit_RepeatedWritesAreIdempotentExceptDr : ready.txq.length < 8 ∧ nearlyFull.txq.length < 8 := by decide
/-- The invariants, in a busy state and with each kind of step to come. -/
def busyAsked : State := asked busy [.access (.read 0x400C 4), .reset]
theorem wit_StepKeepsRegistersLegal : busyAsked.Legal ∧ (nextOf (step busyAsked)).isSome = true := by decide
theorem wit_StepKeepsOutputsAgreeing : busyAsked.OutputsAgree ∧ (nextOf (step busyAsked)).isSome = true := by decide
theorem wit_StepKeepsBoundary : busyAsked.Boundary ∧ (nextOf (step busyAsked)).isSome = true := by decide
theorem wit_ReachableStatesMeetTheInvariants : Reachable (asked State.reset []) := Reachable.boot { cr2Mask := .wide, base := 0x4000 } [] []
/-- One write and its read; and eight writes with the read of the last reply. -/
theorem wit_RepliesComeBackInWriteOrder_one :
    let s := answered (asked State.reset [.access (.write 0x400C 4 0x5A), .access (.read 0x400C 4)]) ([0xC3] ++ [])
    s.Boundary ∧ s.rxq = [] ∧ s.params.base % 4 = 0 ∧ ([0x5A] : List Word).length = ([0xC3] : List Byte).length ∧
    s.replies = [0xC3] ++ [] ∧ ([0xC3] : List Byte)[0]? = some 0xC3 ∧
    s.pending = [0x5A].map (fun w : Word => BusEvent.access (.write (s.params.base + 0x0C) 4 w)) ++
      List.replicate 1 (BusEvent.access (.read (s.params.base + 0x0C) 4)) ++ [] := by decide
theorem wit_RepliesComeBackInWriteOrder_eight :
    let ws : List Word := [1, 2, 3, 4, 5, 6, 7, 8]
    let s := answered (asked State.reset (ws.map (fun w => BusEvent.access (.write 0x400C 4 w)) ++
      List.replicate 8 (BusEvent.access (.read 0x400C 4)) ++ [.reset])) (full ++ [0xEE])
    s.Boundary ∧ s.rxq = [] ∧ s.params.base % 4 = 0 ∧ ws.length = full.length ∧ full.length ≤ 8 ∧ s.replies = full ++ [0xEE] ∧
    full[7]? = some 0x38 ∧
    s.pending = ws.map (fun w => BusEvent.access (.write (s.params.base + 0x0C) 4 w)) ++
      List.replicate 8 (BusEvent.access (.read (s.params.base + 0x0C) 4)) ++ [.reset] := by decide

end Sys2Proof.Tests
end

section
/-! PROOFS. The flags of SR (10_state.md): what each access does to each of them. -/

namespace Sys2Proof.Machine

/-- A queue that takes what it has room for of at least one byte ends non-empty: it held a byte already, or it had room (R104 property f). -/
theorem append_take_room_pos (q : List Byte) {rs : List Byte} (h : 0 < rs.length) :
    0 < (q ++ rs.take (fifoDepth - q.length)).length := by
  simp only [List.length_append, List.length_take, fifoDepth_eq]; omega

/-- `getLsbD_srAfterWrite` for the bits of the word, in the form `simp` brings a flag to. -/
theorem getElem_srAfterWrite (w sr : Word) (i : Nat) (hi : i < 32) :
    (srAfterWrite w sr)[i] = (sr[i] && !((decide (i = 2) && w.getLsbD 2) || (decide (i = 3) && w.getLsbD 3))) := by
  simpa [hi] using getLsbD_srAfterWrite w sr i

/-- Settles O38, by the cases of what an access can do (`exec_cases`): each gives SR as a word, read bit by bit. -/
theorem flagsChangeAsTabulated : Obligations.FlagsChangeAsTabulated := by
  refine ⟨fun i s t h => ?_, fun s => ⟨_, exec_rdSr s, rfl, rfl⟩, by decide⟩
  obtain ⟨hquiet, r, rfl⟩ | ⟨w, rfl, rfl⟩ | ⟨w, rfl, rfl⟩ | ⟨w, rfl, rfl⟩ | ⟨w, rfl, rfl⟩ | ⟨rfl, hempty, rfl⟩ |
    ⟨b, q, rfl, hbyte, rfl⟩ | ⟨w, rfl, hfull, rfl⟩ | ⟨w, rs, rfl, hroom, hlen, -, rfl⟩ := exec_cases h
  · -- a quiet access: the six accesses that write something are none
    cases i
    case wrCr1 | wrCr2 | wrSr | rdDr | wrDr | wrCsctrl => cases hquiet
    all_goals exact ⟨rfl, rfl, rfl, rfl⟩
  · exact ⟨rfl, rfl, rfl, rfl⟩ -- WR_CR1
  · exact ⟨rfl, rfl, rfl, rfl⟩ -- WR_CR2
  · -- WR_SR: write 1 to clear
    simp [getElem_srAfterWrite]
  · exact ⟨rfl, rfl, rfl, rfl⟩ -- WR_CSCTRL
  · -- RD_DR with no byte to take
    simp [hempty]
  · -- RD_DR takes a byte: RXNE falls when it was the last
    cases q <;> simp [hbyte]
  · -- WR_DR on a full TXQ
    have hge : 8 ≤ s.txq.length := not_lt.mp hfull
    simp [hge]
  · -- WR_DR that transmits: RXQ has the first reply or was not empty
    have hlt : s.txq.length < 8 := hroom
    have hrxq := append_take_room_pos s.rxq (rs := rs) (by omega)
    simp [hlt, hrxq, -List.length_append]

end Sys2Proof.Machine
end

section
/-! PROOFS. The index table of an aligned access (30_encoding.md, R62). -/

namespace Sys2Proof

/-- `W`, `IDX` and two zero bits are the command word of the offset `4 * IDX` (R61). -/
theorem append_index_eq_commandOf (isWrite : Bool) (idx : BitVec 6) :
    BitVec.ofBool isWrite ++ idx ++ 0#2 = commandOf isWrite (idx ++ 0#2) := BitVec.append_assoc

theorem toNat_append_byte_zero (idx : BitVec 6) : (idx ++ 0#2).toNat = 4 * idx.toNat := by
  rw [BitVec.toNat_append, BitVec.toNat_ofNat, Nat.zero_mod, Nat.or_zero, Nat.shiftLeft_eq, Nat.mul_comm]

/-- The offset of a word index lies in the range of offsets that its range of indices spans. -/
theorem offsetIn_of_index {idx : BitVec 6} {lo hi : Nat} (h : lo ≤ idx.toNat ∧ idx.toNat ≤ hi) :
    offsetIn (4 * lo) (4 * hi) (idx ++ 0#2) = true := by
  obtain ⟨hlo, hhi⟩ := h
  simp only [offsetIn, toNat_append_byte_zero, Bool.and_eq_true, beq_iff_eq, decide_eq_true_eq]
  omega

/-- The aligned access at a well-formed instruction's word index, in its direction, is decoded to that instruction's row, with the
write data of the access (R62): the write data takes no part in which row it is. -/
theorem decodeAccess_index (i : Instr) {idx : BitVec 6} (wdata : Word) (hidx : i.offset = idx ++ 0#2) (hwf : i.wf = true) :
    decodeAccess (BitVec.ofBool i.isWrite ++ idx ++ 0#2) wdata = .ok (i.op.instr i.offset wdata) := by
  obtain ⟨hrow, hoffset, -⟩ := commandWord i hwf
  rw [append_index_eq_commandOf, ← hidx, ← Instr.command, decodeAccess, hrow, hoffset]

/-- Settles O3, row by row of the table: each is `decodeAccess_index` of the row's read and of its write. -/
theorem decodeFollowsIndexTable : Obligations.DecodeFollowsIndexTable := by
  intro idx w
  refine ⟨?_, ?_, ?_, ?_, ?_, ?_, fun h => ?_, fun h => ?_, fun h => ?_, fun h => ?_⟩
  · rintro rfl; exact ⟨decodeAccess_index .rdCr1 w rfl rfl, decodeAccess_index (.wrCr1 w) w rfl rfl⟩
  · rintro rfl; exact ⟨decodeAccess_index .rdCr2 w rfl rfl, decodeAccess_index (.wrCr2 w) w rfl rfl⟩
  · rintro rfl; exact ⟨decodeAccess_index .rdSr w rfl rfl, decodeAccess_index (.wrSr w) w rfl rfl⟩
  · rintro rfl; exact ⟨decodeAccess_index .rdDr w rfl rfl, decodeAccess_index (.wrDr w) w rfl rfl⟩
  · rintro rfl; exact ⟨decodeAccess_index .rdCsctrl w rfl rfl, decodeAccess_index (.wrCsctrl w) w rfl rfl⟩
  · rintro rfl; exact ⟨decodeAccess_index .rdRsvd14 w rfl rfl, decodeAccess_index (.wrRsvd14 w) w rfl rfl⟩
  · have hin := offsetIn_of_index h
    exact ⟨decodeAccess_index (.rdRsvd18 _) w rfl hin, decodeAccess_index (.wrRsvd18 _ w) w rfl hin⟩
  · have hin := offsetIn_of_index h
    exact ⟨decodeAccess_index (.rdRsvd20 _) w rfl hin, decodeAccess_index (.wrRsvd20 _ w) w rfl hin⟩
  · have hin := offsetIn_of_index h
    exact ⟨decodeAccess_index (.rdRsvd40 _) w rfl hin, decodeAccess_index (.wrRsvd40 _ w) w rfl hin⟩
  · have hin := offsetIn_of_index (hi := 63) ⟨h, by omega⟩
    exact ⟨decodeAccess_index (.rdRsvd80 _) w rfl hin, decodeAccess_index (.wrRsvd80 _ w) w rfl hin⟩

end Sys2Proof
end

section
/-! PROOFS. The reads of the control registers (40_control_registers.md): R80 and R82. -/

namespace Sys2Proof.Machine

/-- The end of a read changes the read data and drives the level, and nothing else (R80, R82, R150). -/
theorem setRdata_irqUpdate_frame (s : State) (r : Option Word) :
    let t := (s.setRdata r).irqUpdate
    SameRegisters s t ∧ SameQueues s t ∧ SameBus s t ∧ OnlyIrqDriven s t ∧ IrqKept s t := by
  refine ⟨⟨rfl, rfl, rfl, rfl⟩, ⟨rfl, rfl⟩, ⟨rfl, rfl⟩, ⟨rfl, rfl, rfl, rfl⟩, fun hagree => ⟨hagree.symm, ?_⟩⟩
  simp [irqEvents_kept hagree]

/-- A word with no bit outside a mask is at most the mask. -/
theorem le_mask_of_outside {w m : Word} (h : w &&& ~~~m = 0) : w ≤ m := by
  have hand : w &&& m = w := by
    ext i hi
    have hbit : (w[i] && !m[i]) = false := by
      rw [← BitVec.getElem_not, ← BitVec.getElem_and, h]; simp
    rw [BitVec.getElem_and]
    cases hw : w[i]
    · exact Bool.false_and _
    · simpa [hw] using hbit
  rw [← hand]
  exact Nat.and_le_right

/-- The two bits of `CR1_WMASK` give four values (R13): the words up to the mask are few enough to look at each. -/
theorem cr1_values {w : Word} (h : w &&& ~~~cr1Wmask = 0) : w = 0x00 ∨ w = 0x04 ∨ w = 0x40 ∨ w = 0x44 := by
  have hall : ∀ n < 0x45, BitVec.ofNat 32 n &&& ~~~cr1Wmask = 0 → BitVec.ofNat 32 n = 0x00 ∨
    BitVec.ofNat 32 n = 0x04 ∨ BitVec.ofNat 32 n = 0x40 ∨ BitVec.ofNat 32 n = 0x44 := by decide
  obtain ⟨n, hn, rfl⟩ : ∃ n < 0x45, w = BitVec.ofNat 32 n :=
    ⟨w.toNat, Nat.lt_succ_of_le (le_mask_of_outside h), by simp⟩
  exact hall n hn h

/-- Settles O18: the read of word index 0 (`decodeAccess_index`), the frame of a read, and the four values of a legal CR1. -/
theorem readCr1ReturnsTheStoredValue : Obligations.ReadCr1ReturnsTheStoredValue := by
  refine ⟨fun v => decodeAccess_index .rdCr1 (idx := 0) v rfl rfl, fun s => ⟨_, exec_rdCr1 s, rfl, ?_⟩⟩
  obtain ⟨hregisters, hqueues, hbus, hdriven, hkept⟩ := setRdata_irqUpdate_frame s (some s.cr1)
  exact ⟨hregisters, hqueues, hbus, hdriven, hkept, fun ⟨hcr1, _⟩ => cr1_values hcr1⟩

/-- Settles O20: the read of word index 1 (`decodeAccess_index`), the frame of a read, and for each of the two masks of D1 what
`State.Legal` says of CR2. -/
theorem readCr2ReturnsTheStoredValue : Obligations.ReadCr2ReturnsTheStoredValue := by
  refine ⟨fun v => decodeAccess_index .rdCr2 (idx := 1) v rfl rfl, fun s => ⟨_, exec_rdCr2 s, rfl, ?_⟩⟩
  obtain ⟨hregisters, hqueues, hbus, hdriven, hkept⟩ := setRdata_irqUpdate_frame s (some s.cr2)
  refine ⟨hregisters, hqueues, hbus, hdriven, hkept, fun ⟨_, hcr2, _⟩ => ?_⟩
  cases hmask : s.params.cr2Mask with
  | wide => rwa [hmask, cr2Wmask_wide] at hcr2
  | narrow => rwa [hmask, cr2Wmask_narrow] at hcr2

end Sys2Proof.Machine
end

section
/-! PROOFS. The status register (41_status_register.md): R90 and R91. -/

namespace Sys2Proof.Machine

/-- Settles O22: the read of word index 2 (`decodeAccess_index`), the frame of a read, what `State.Legal` says of SR, whose bits 31:4
are those outside `srBits`, and the two flags of `State.Boundary`. -/
theorem readSrReturnsTheLiveValue : Obligations.ReadSrReturnsTheLiveValue := by
  refine ⟨fun v => decodeAccess_index .rdSr (idx := 2) v rfl rfl, fun s => ⟨_, exec_rdSr s, rfl, ?_⟩⟩
  obtain ⟨hregisters, hqueues, hbus, hdriven, hkept⟩ := setRdata_irqUpdate_frame s (some s.sr)
  exact ⟨hregisters, hqueues, hbus, hdriven, hkept, fun ⟨_, _, hsr, _⟩ => hsr, fun ⟨_, htxe, _, htxovf⟩ => ⟨htxe, htxovf⟩⟩

/-- The command word of WR_SR does not depend on its write data (R62). -/
theorem command_wrSr (w : Word) : (Instr.wrSr w).command = 0x108 := by
  simp only [Instr.command, Instr.isWrite, Instr.offset]; decide

/-- A write to SR keeps every bit but OVR and TXOVF (R91). -/
theorem getLsbD_srAfterWrite_of_ne {k : Nat} (hovr : k ≠ ovr) (htxovf : k ≠ txovf) (w sr : Word) :
    (srAfterWrite w sr).getLsbD k = sr.getLsbD k := by
  simp [getLsbD_srAfterWrite, hovr, htxovf]

/-- Settles O23: WR_SR is read back from its command word (`decodeAccess_command`); of `SR & ~(WDATA & 0xC)`, the two bits that a
write can clear and then the others; the rest of the state is that before the access, with the level driven. -/
theorem writeSrClearsTheLatchedFlags : Obligations.WriteSrClearsTheLatchedFlags := by
  refine ⟨fun v => command_wrSr v ▸ decodeAccess_command (.wrSr v) rfl, fun w s => ⟨_, exec_wrSr w s, rfl, ?_, ?_, ?_,
    rfl, rfl, rfl, rfl, ⟨rfl, rfl⟩, ⟨rfl, rfl⟩, ⟨rfl, rfl, rfl, rfl⟩⟩⟩
  · exact (getLsbD_srAfterWrite w s.sr 2).trans (by simp)
  · exact (getLsbD_srAfterWrite w s.sr 3).trans (by simp)
  · exact fun k hovr htxovf => getLsbD_srAfterWrite_of_ne hovr htxovf w s.sr

end Sys2Proof.Machine
end

section
/-! PROOFS. The queues and the data register (42_data_register_fifo.md): push, pop, Flush, the four policies, RD_DR. -/

namespace Sys2Proof.Machine

/-- Settles O31: room is what `push` asks for. -/
theorem pushAppendsAtTheTail : Obligations.PushAppendsAtTheTail := by
  intro q b hroom
  have hpush : push q b = q ++ [b] := push_room hroom b
  exact ⟨hpush, by rw [hpush, List.length_append, List.length_singleton]⟩

/-- Settles O32, by the two shapes of a queue. -/
theorem popTakesTheHead : Obligations.PopTakesTheHead := by
  intro q hpos
  cases q with
  | nil => cases hpos
  | cons b rest => exact ⟨b, rest, rfl, rfl, rfl⟩

/-- SR after Flush: RXNE tells whether RXQ holds a byte, TXE is set, and no other flag is written (R104). -/
theorem flush_flags (s : State) :
    s.flush.sr.getLsbD 0 = decide (0 < s.flush.rxq.length) ∧ s.flush.sr.getLsbD 1 = true ∧
      ∀ k, 2 ≤ k → s.flush.sr.getLsbD k = s.sr.getLsbD k := by
  obtain ⟨rs, -, -, hflush⟩ := flush_spec s
  rw [hflush]
  split
  · next hbyte => exact ⟨by simpa using hbyte, by simp, fun k hk => by simp [show k ≠ 0 by omega, show k ≠ 1 by omega]⟩
  · next hnone => exact ⟨by simpa using hnone, by simp, fun k hk => by simp [show k ≠ 0 by omega, show k ≠ 1 by omega]⟩

/-- A flush that makes a call leaves RXQ non-empty: the first reply finds room, or RXQ is full (R104 property f). -/
theorem flush_rxq_pos {s : State} (h : 0 < s.txq.length) : 0 < s.flush.rxq.length := by
  obtain ⟨rs, hlen, -, hflush⟩ := flush_spec s
  rw [hflush]
  exact append_take_room_pos s.rxq (hlen ▸ h)

/-- Settles O33: the queues, the calls and the frame are those of `flush_spec`, where taking what RXQ has room for takes no more than
the `n` replies there are; the flags are `flush_flags`. -/
theorem flushDrainsTxqIntoRxq : Obligations.FlushDrainsTxqIntoRxq := by
  intro s
  obtain ⟨hrxne, htxe, hothers⟩ := flush_flags s
  have hset : 0 < s.txq.length → s.flush.sr.getLsbD 0 = true := fun h => hrxne.trans (decide_eq_true (flush_rxq_pos h))
  obtain ⟨rs, hlen, -, hflush⟩ := flush_spec s
  have hfit : rs.take (fifoDepth - s.rxq.length) = rs.take (min s.txq.length (8 - s.rxq.length)) := by
    rw [List.take_eq_take_min, hlen, Nat.min_comm]
  refine ⟨rs, hlen, ?_, ?_, ?_, htxe, hrxne, hset, hothers, ?_⟩ <;> rw [hflush]
  · rw [hfit]
  · exact ⟨rfl, rfl, rfl, rfl, rfl, rfl, rfl⟩

/-- A flush of an empty TXQ makes no call and takes no reply (R102, R104). -/
theorem flush_of_txq_nil {s : State} (h : s.txq = []) :
    s.flush.trace = s.trace ∧ s.flush.rxq = s.rxq ∧ s.flush.replies = s.replies := by
  obtain ⟨rs, hlen, -, hflush⟩ := flush_spec s
  obtain rfl : rs = [] := List.eq_nil_of_length_eq_zero (by rw [hlen, h, List.length_nil])
  rw [hflush]
  simp [h]

/-- Settles O34, one policy each: WR_DR on a full TXQ, WR_DR that transmits into a full RXQ, RD_DR on an empty RXQ, Flush of an empty
TXQ. -/
theorem overflowAndUnderflowPolicies : Obligations.OverflowAndUnderflowPolicies := by
  refine ⟨fun w s hfull => ?_, fun w s hroom hfull => ?_, fun s hempty => ?_, fun s hempty => flush_of_txq_nil hempty⟩
  · -- TXQ overflow: only the level is driven
    exact ⟨_, exec_wrDr_full hfull.not_lt w, rfl, by simp, by simp⟩
  · -- RXQ overflow: no room is left for any reply
    obtain ⟨rs, hlen, -, hexec⟩ := exec_wrDr_room_spec hroom w
    have hsent := sentBytes_zipWith (s.txq ++ [drOperand w]) rs (by simpa using hlen)
    refine ⟨_, hexec, by simp [hfull], fun k hk => by simp [show k ≠ 0 by omega, show k ≠ 1 by omega], ?_⟩
    simp only [sentBytes_append, sentBytes_irqEvents, List.append_nil, List.append_assoc, hsent]
    rw [drOperand_eq]
  · -- RXQ underflow
    exact ⟨_, exec_rdDr_empty hempty, rfl, by simp⟩

/-- Settles O24: RD_DR is read from word index 3 (`decodeAccess_index`); it takes a byte, the last one or not, or finds none. Each time
SR is read bit by bit, and the rest of the state is that before the access, with the level driven. -/
theorem readDrTakesTheOldestByteOrLatchesOvr : Obligations.ReadDrTakesTheOldestByteOrLatchesOvr := by
  refine ⟨fun v => decodeAccess_index .rdDr (idx := 3) v rfl rfl, fun s => ⟨fun b q hbyte => ?_, fun hempty => ?_⟩⟩
  · refine ⟨_, exec_rdDr_byte hbyte, rfl, rfl, ?_, fun k hk => ?_, rfl, rfl, rfl, rfl, ⟨rfl, rfl⟩, ⟨rfl, rfl, rfl, rfl⟩⟩
    · cases q <;> simp -- RXNE falls when that was the last byte
    · cases q <;> simp [hk]
  · exact ⟨_, exec_rdDr_empty hempty, rfl, hempty, by simp, by simp, fun k hrxne hovr => by simp [hrxne, hovr],
      rfl, rfl, rfl, rfl, ⟨rfl, rfl⟩, ⟨rfl, rfl, rfl, rfl⟩⟩

end Sys2Proof.Machine
end

section
/-! PROOFS. The chip-select register and its lines (43_chip_select.md): R120, R121 and R122. -/

namespace Sys2Proof.Machine

/-- The two command words of word index 4 (R61), by the index table. -/
theorem decodeAccess_csctrl (v : Word) : decodeAccess 0x010 v = .ok .rdCsctrl ∧ decodeAccess 0x110 v = .ok (.wrCsctrl v) := by
  obtain ⟨-, -, -, -, hindex, -⟩ := decodeFollowsIndexTable 4 v
  exact hindex rfl

/-- Settles O27: the read of word index 4 (`decodeAccess_csctrl`), the frame of a read, and what `State.Legal` says of CSCTRL, whose
bits 31:8 are those outside `csctrlWmask`. -/
theorem readCsctrlReturnsTheStoredValue : Obligations.ReadCsctrlReturnsTheStoredValue := by
  refine ⟨fun v => (decodeAccess_csctrl v).1, fun s => ⟨_, exec_rdCsctrl s, rfl, ?_⟩⟩
  obtain ⟨hregisters, hqueues, hbus, hdriven, hkept⟩ := setRdata_irqUpdate_frame s (some s.csctrl)
  exact ⟨hregisters, hqueues, hbus, hdriven, hkept, fun ⟨_, _, _, hcsctrl, _⟩ => hcsctrl⟩

/-- A line is low exactly when its request and its enable are both set (R120). -/
theorem getLsbD_csLines {i : Nat} (hi : i < 4) (csctrl : Word) :
    (csLines csctrl).getLsbD i = !(csctrl.getLsbD i && csctrl.getLsbD (i + 4)) := by
  simp [csLines, csAsserted, hi, Nat.add_comm 4 i]

/-- A write to CSCTRL takes bits 7:0 of the write data as they are (R122). -/
theorem getLsbD_csctrlOperand {i : Nat} (hi : i < 8) (w : Word) : (csctrlOperand w).getLsbD i = w.getLsbD i := by
  have hmask : ∀ k : Fin 8, csctrlWmask.getLsbD k = true := by decide
  rw [csctrlOperand, BitVec.getLsbD_and, hmask ⟨i, hi⟩, Bool.and_true]

/-- Settles O28: WR_CSCTRL is read from word index 4 (`decodeAccess_csctrl`); each line is that of the stored value (R120), whose
request and enable are those of the write data; the level reads two registers that the write leaves alone, and the rest of the state
is that before the access. -/
theorem writeCsctrlDrivesTheLines : Obligations.WriteCsctrlDrivesTheLines := by
  refine ⟨fun v => (decodeAccess_csctrl v).2, fun w s => ⟨_, exec_wrCsctrl w s, rfl, fun i hi => ?_,
    rfl, rfl, rfl, rfl, ⟨rfl, rfl⟩, ⟨rfl, rfl⟩, rfl, rfl, rfl, fun hagree => hagree.symm⟩⟩
  calc (csLines (csctrlOperand w)).getLsbD i
      = !((csctrlOperand w).getLsbD i && (csctrlOperand w).getLsbD (i + 4)) := getLsbD_csLines hi _
    _ = !(w.getLsbD i && w.getLsbD (i + 4)) := by
      rw [getLsbD_csctrlOperand (by omega), getLsbD_csctrlOperand (by omega)]

end Sys2Proof.Machine
end

section
/-! PROOFS. The interrupt level and the end of every access (60_exceptions.md): R140, R150 and R151. -/

namespace Sys2Proof.Machine

/-- Settles O35: the three tests of R150, each overwriting the ones before it, are the table read from its highest level down. -/
theorem irqLevelFollowsTheTable : Obligations.IrqLevelFollowsTheTable := fun _ _ => rfl

/-- How every access ends: the read data are laid down, present for a read and absent for a write, and the level is driven (R60, R140,
R150). -/
theorem exec_ends_with_irqUpdate (i : Instr) (s : State) :
    ∃ (u : State) (r : Option Word), exec i s = .next (u.setRdata r).irqUpdate ∧ r.isSome = !i.isWrite := by
  cases i
  case wrDr w =>
    by_cases hroom : s.txq.length < fifoDepth
    · exact ⟨_, none, exec_wrDr_room hroom w, rfl⟩
    · exact ⟨_, none, exec_wrDr_full hroom w, rfl⟩
  all_goals exact ⟨_, _, rfl, rfl⟩

/-- Settles O37: the state that `exec_ends_with_irqUpdate` gives holds the read data that were laid down. -/
theorem everyAccessCompletes : Obligations.EveryAccessCompletes := by
  intro i s
  obtain ⟨u, r, hexec, hdata⟩ := exec_ends_with_irqUpdate i s
  exact ⟨_, hexec, hdata⟩

/-- The level after an access is the function of the registers after it (R150). -/
theorem exec_irq {i : Instr} {s t : State} (h : exec i s = .next t) : t.irq = irqLevel t.sr t.cr2 := by
  obtain ⟨u, r, hexec, -⟩ := exec_ends_with_irqUpdate i s
  obtain rfl : (u.setRdata r).irqUpdate = t := Host.Outcome.next.inj (hexec.symm.trans h)
  rfl

/-- Words with the same field of `n` bits from bit `k` up agree on each bit of the field. -/
theorem getLsbD_eq_of_field_eq {w w' : Word} {k n : Nat} (h : w.extractLsb' k n = w'.extractLsb' k n) {i : Nat}
    (hlo : k ≤ i) (hhi : i < k + n) : w.getLsbD i = w'.getLsbD i := by
  have hbit : (w.extractLsb' k n).getLsbD (i - k) = (w'.extractLsb' k n).getLsbD (i - k) := by rw [h]
  simpa [show i - k < n by omega, Nat.add_sub_of_le hlo] using hbit

/-- Settles O36: the chain of tests is R151's table (`irqLevelFollowsTheTable`), which reads seven bits (`irqLevel_congr`); an access
ends by driving the level (`exec_irq`), and so does reset. -/
theorem everyAccessEndsWithTheLevel : Obligations.EveryAccessEndsWithTheLevel := by
  refine ⟨fun sr cr2 => ?_, fun sr sr' cr2 cr2' hsr hcr2 => ?_, fun i s t => exec_irq, fun s => rfl⟩
  · rw [irqLevelFollowsTheTable sr cr2]
    simp only [Bool.and_eq_true, Bool.or_eq_true]
    refine ⟨fun herror => if_pos herror, fun hnoError => ?_⟩
    rw [if_neg hnoError]
    refine ⟨fun hreceive => if_pos hreceive, fun hnoReceive => ?_⟩
    rw [if_neg hnoReceive]
    exact ⟨fun htransmit => if_pos htransmit, fun hnoTransmit => if_neg hnoTransmit⟩
  · exact irqLevel_congr (fun k hk => getLsbD_eq_of_field_eq hsr (Nat.zero_le k) (by omega))
      (fun k hlo hhi => getLsbD_eq_of_field_eq hcr2 hlo hhi)

end Sys2Proof.Machine
end

section
/-! PROOFS. Decode and encode (30_encoding.md): the byte form and back (log 11), the operation map, the byte lanes. -/

namespace Sys2Proof

/-- A read carries no write data (R60). -/
theorem wdata_of_read {i : Instr} (h : i.isWrite = false) : i.wdata = 0 := by
  cases i
  case wrCr1 | wrCr2 | wrSr | wrDr | wrCsctrl | wrRsvd14 | wrRsvd18 | wrRsvd20 | wrRsvd40 | wrRsvd80 => cases h
  all_goals rfl

/-- The bytes of a read: its offset, and the upper byte of CMD with `W` clear. -/
theorem encode_read {i : Instr} (h : i.isWrite = false) : encode i = [i.offset, 0] := by
  simp [encode, h]

/-- The bytes of a write: its offset, the upper byte of CMD with `W` set, and the lanes of WDATA. -/
theorem encode_write {i : Instr} (h : i.isWrite = true) : encode i = i.offset :: 1 :: lanes i.wdata := by
  simp [encode, h]

/-- Two bytes with `W` clear are decoded as a read. -/
theorem decode_read (lo : Byte) (rest : List Byte) :
    decode (lo :: 0 :: rest) = (decodeAccess (commandOf false lo) 0).map (·, rest) := rfl

/-- Two bytes with `W` set, and four lanes, are decoded as a write of the value with those lanes. -/
theorem decode_write (lo : Byte) (w : Word) (rest : List Byte) :
    decode (lo :: 1 :: (lanes w ++ rest)) = (decodeAccess (commandOf true lo) w).map (·, rest) := by
  conv_rhs => rw [← ofLanes_lanes w]
  rfl

/-- A byte below 2 is its lowest bit. -/
theorem byte_eq_of_lt_two {b : Byte} (h : b.toNat < 2) : b = if b.getLsbD 0 then 1 else 0 := by
  revert b; decide

theorem map_ok_inj {ε α β : Type} {f : α → β} {r : Except ε α} {b : β} (h : r.map f = .ok b) : ∃ a, r = .ok a ∧ f a = b := by
  cases r with
  | ok a => exact ⟨a, rfl, Except.ok.inj h⟩
  | error e => cases h

/-- What decodes is a read of two bytes, or a write of two bytes and four lanes. -/
theorem decode_cases {bytes rest : List Byte} {i : Instr} (h : decode bytes = .ok (i, rest)) :
    (∃ lo, bytes = lo :: 0 :: rest ∧ decodeAccess (commandOf false lo) 0 = .ok i) ∨
    (∃ lo w, bytes = lo :: 1 :: (lanes w ++ rest) ∧ decodeAccess (commandOf true lo) w = .ok i) := by
  unfold decode at h
  split at h
  · next lo hi tail =>
    split at h
    · next hlt =>
      have hhi := byte_eq_of_lt_two hlt
      split at h
      · next hbit =>
        obtain ⟨j, hj, hpair⟩ := map_ok_inj h
        cases hpair
        exact .inl ⟨lo, by rw [hhi, hbit]; rfl, hj⟩
      · next b0 b1 b2 b3 tail hbit =>
        obtain ⟨j, hj, hpair⟩ := map_ok_inj h
        cases hpair
        exact .inr ⟨lo, _, by rw [hhi, hbit, lanes_ofLanes]; rfl, hj⟩
      · cases h
    · cases h
  · cases h

/-- What an access decodes to is well-formed and has the direction, the offset and the write data of the access (R61, R62). -/
theorem decodeAccess_fields {isWrite : Bool} {offset : Offset} {w : Word} {i : Instr}
    (h : decodeAccess (commandOf isWrite offset) w = .ok i) (hread : isWrite = false → w = 0) :
    i.wf = true ∧ i.isWrite = isWrite ∧ i.offset = offset ∧ i.wdata = w := by
  unfold decodeAccess at h
  split at h
  · next op hop =>
    rw [offset_commandOf] at h
    obtain rfl := Except.ok.inj h
    exact selectOp_instr isWrite offset op hop w hread
  · cases h

/-- Settles O5: a read or a write, the bytes are decoded as the access of the instruction's own command word and write data. -/
theorem decodeOfEncodeIsTheInstruction : Obligations.DecodeOfEncodeIsTheInstruction := by
  intro i rest hwf
  have haccess : decodeAccess (commandOf i.isWrite i.offset) i.wdata = .ok i := decodeAccess_command i hwf
  cases hdir : i.isWrite with
  | false =>
    rw [hdir, wdata_of_read hdir] at haccess
    rw [encode_read hdir, List.cons_append, List.cons_append, List.nil_append, decode_read, haccess]
    rfl
  | true =>
    rw [hdir] at haccess
    rw [encode_write hdir, List.cons_append, List.cons_append, decode_write, haccess]
    rfl

/-- Settles O6: the two shapes of what decodes (`decode_cases`) are those of the two encodings, with the fields of the access. -/
theorem decodedBytesAreTheEncoding : Obligations.DecodedBytesAreTheEncoding := by
  intro bytes rest i h
  obtain ⟨lo, rfl, haccess⟩ | ⟨lo, w, rfl, haccess⟩ := decode_cases h
  · obtain ⟨hwf, hdir, hoffset, -⟩ := decodeAccess_fields haccess (fun _ => rfl)
    exact ⟨hwf, by rw [encode_read hdir, hoffset]; rfl⟩
  · obtain ⟨hwf, hdir, hoffset, hdata⟩ := decodeAccess_fields haccess Bool.noConfusion
    exact ⟨hwf, by rw [encode_write hdir, hoffset, hdata]; rfl⟩

/-- Settles O1: every word is closed. -/
theorem tableWordsDecodeToTheirRows : Obligations.TableWordsDecodeToTheirRows := by
  unfold Obligations.TableWordsDecodeToTheirRows; decide

/-- Settles O2, by looking at each of the 512 command words. -/
theorem patternsSelectExactlyOneRow : Obligations.PatternsSelectExactlyOneRow := ⟨rfl, by decide⟩

/-- A command word selects a row when it is aligned, and only then (R65, R67). -/
theorem selectOp_isSome_iff (c : Command) : (selectOp c).isSome = true ↔ c.extractLsb' 0 2 = 0 := by
  have hcount := patternsSelectExactlyOneRow.2 c
  have hpos : (selectOp c).isSome = true ↔ 0 < (operationMap.filter (·.selects c)).length := by
    simp [selectOp, List.length_pos_iff_exists_mem, List.mem_filter]
  rw [hpos, hcount]
  split <;> simp_all

/-- Settles O4: a command word that selects no row is illegal (R67). -/
theorem misalignedCommandsHaveNoInstruction : Obligations.MisalignedCommandsHaveNoInstruction := by
  intro c w hbyte
  have hnone : selectOp c = none := by
    rwa [← Option.not_isSome_iff_eq_none, selectOp_isSome_iff]
  rw [decodeAccess, hnone]

/-- An aligned command word has an instruction (R67). -/
theorem decodeAccess_aligned {c : Command} (h : c.extractLsb' 0 2 = 0) (w : Word) : ∃ i, decodeAccess c w = .ok i := by
  obtain ⟨op, hop⟩ := Option.isSome_iff_exists.mp ((selectOp_isSome_iff c).mpr h)
  exact ⟨_, by rw [decodeAccess, hop]⟩

/-- Settles O7: the lanes join to the value again (`ofLanes_lanes`), and each is a field of it. -/
theorem byteLanesAreLittleEndian : Obligations.ByteLanesAreLittleEndian := by
  refine fun w => ⟨_, _, _, _, rfl, ofLanes_lanes w, fun k hk => ?_⟩
  simp [hk]

end Sys2Proof
end

section
/-! PROOFS. The frame of an access (10_state.md): which access alone changes each element. -/

namespace Sys2Proof.Machine

/-- No access touches a bit of SR outside 3:0 (R21). -/
theorem exec_keeps_high_sr {i : Instr} {s t : State} (h : exec i s = .next t) {k : Nat} (hk : 4 ≤ k) :
    t.sr.getLsbD k = s.sr.getLsbD k := by
  have h0 : k ≠ 0 := by omega
  have h1 : k ≠ 1 := by omega
  have h2 : k ≠ 2 := by omega
  have h3 : k ≠ 3 := by omega
  obtain ⟨-, r, rfl⟩ | ⟨w, -, rfl⟩ | ⟨w, -, rfl⟩ | ⟨w, -, rfl⟩ | ⟨w, -, rfl⟩ | ⟨-, -, rfl⟩ |
    ⟨b, q, -, -, rfl⟩ | ⟨w, -, -, rfl⟩ | ⟨w, rs, -, -, -, -, rfl⟩ := exec_cases h
  · rfl -- a quiet access
  · rfl -- WR_CR1
  · rfl -- WR_CR2
  · exact getLsbD_srAfterWrite_of_ne h2 h3 w s.sr -- WR_SR
  · rfl -- WR_CSCTRL
  · simp [h0, h2] -- RD_DR with no byte to take
  · cases q <;> simp [h0] -- RD_DR takes a byte: RXNE may fall
  · simp [h3] -- WR_DR on a full TXQ
  · simp [h0, h1] -- WR_DR that transmits

/-- Settles O39, by the cases of what an access can do (`exec_cases`): each gives the elements it writes by name, and the others are
those before. -/
theorem onlyItsOwnAccessChangesAnElement : Obligations.OnlyItsOwnAccessChangesAnElement := by
  intro i s t h
  have hhigh : ∀ k, 4 ≤ k → t.sr.getLsbD k = s.sr.getLsbD k := fun k => exec_keeps_high_sr h
  obtain ⟨-, r, rfl⟩ | ⟨w, rfl, rfl⟩ | ⟨w, rfl, rfl⟩ | ⟨w, rfl, rfl⟩ | ⟨w, rfl, rfl⟩ | ⟨rfl, -, rfl⟩ |
    ⟨b, q, rfl, -, rfl⟩ | ⟨w, rfl, -, rfl⟩ | ⟨w, rs, rfl, -, -, -, rfl⟩ := exec_cases h
  all_goals exact ⟨by simp, by simp, by simp, by simp, by simp, by simp, hhigh, by simp⟩

/-! The parts of it that other proofs use. -/

theorem exec_keeps_bus {i : Instr} {s t : State} (h : exec i s = .next t) : SameBus s t := by
  obtain ⟨-, -, -, -, -, -, -, hbus⟩ := onlyItsOwnAccessChangesAnElement i s t h
  exact hbus

theorem exec_keeps_cr1 {i : Instr} {s t : State} (h : exec i s = .next t) (hi : ∀ w, i ≠ .wrCr1 w) : t.cr1 = s.cr1 := by
  obtain ⟨hcr1, -⟩ := onlyItsOwnAccessChangesAnElement i s t h
  exact not_ne_iff.mp fun hne => let ⟨w, hw⟩ := hcr1 hne; hi w hw

theorem exec_keeps_cr2 {i : Instr} {s t : State} (h : exec i s = .next t) (hi : ∀ w, i ≠ .wrCr2 w) : t.cr2 = s.cr2 := by
  obtain ⟨-, hcr2, -⟩ := onlyItsOwnAccessChangesAnElement i s t h
  exact not_ne_iff.mp fun hne => let ⟨w, hw⟩ := hcr2 hne; hi w hw

theorem exec_keeps_csctrl_csN {i : Instr} {s t : State} (h : exec i s = .next t) (hi : ∀ w, i ≠ .wrCsctrl w) :
    t.csctrl = s.csctrl ∧ t.csN = s.csN := by
  obtain ⟨-, -, hlines, -⟩ := onlyItsOwnAccessChangesAnElement i s t h
  by_contra hne
  obtain ⟨w, hw⟩ := hlines (not_and_or.mp hne)
  exact hi w hw

theorem exec_keeps_sr {i : Instr} {s t : State} (h : exec i s = .next t) (hrd : i ≠ .rdDr)
    (hi : ∀ w, i ≠ .wrSr w ∧ i ≠ .wrDr w) : t.sr = s.sr := by
  obtain ⟨-, -, -, hsr, -⟩ := onlyItsOwnAccessChangesAnElement i s t h
  by_contra hne
  obtain hi' | ⟨w, hw | hw⟩ := hsr hne
  · exact hrd hi'
  · exact (hi w).1 hw
  · exact (hi w).2 hw

theorem exec_keeps_txq_sent {i : Instr} {s t : State} (h : exec i s = .next t) (hi : ∀ w, i ≠ .wrDr w) :
    t.txq = s.txq ∧ sentBytes t.trace = sentBytes s.trace := by
  obtain ⟨-, -, -, -, htxq, -⟩ := onlyItsOwnAccessChangesAnElement i s t h
  refine ⟨not_ne_iff.mp fun hne => ?_, not_ne_iff.mp fun hne => ?_⟩
  · obtain ⟨w, hw⟩ := htxq (.inl hne); exact hi w hw
  · obtain ⟨w, hw⟩ := htxq (.inr (.inr hne)); exact hi w hw

end Sys2Proof.Machine
end

section
/-! PROOFS. The step (20_memory.md): from a bus access to the instruction it is, and what the step then does. -/

namespace Sys2Proof

/-- The two low bits of a command word are those of its offset (R61). -/
theorem commandOf_aligned_iff : ∀ (isWrite : Bool) (offset : Offset),
    (commandOf isWrite offset).extractLsb' 0 2 = 0 ↔ offset.toNat % 4 = 0 := by decide

/-- A well-formed instruction has an aligned offset (R44): its command word selects a row. -/
theorem offset_aligned {i : Instr} (h : i.wf = true) : i.offset.toNat % 4 = 0 := by
  obtain ⟨hrow, -⟩ := commandWord i h
  rw [← commandOf_aligned_iff i.isWrite, ← selectOp_isSome_iff, ← Instr.command, hrow]
  rfl

theorem toNat_byteAt (v pos : Nat) : (byteAt v pos).toNat = v / 2 ^ pos % 256 := by
  rw [byteAt, BitVec.toNat_ofNat, Nat.shiftRight_eq_div_pow]

/-- The lanes of a number's bits 47:16 are its bytes from the third on (log 11). -/
theorem lanes_tableWord (v : Nat) :
    lanes (BitVec.ofNat 32 (v / 65536)) = [byteAt v 16, byteAt v 24, byteAt v 32, byteAt v 40] := by
  have hlane : ∀ k ≤ 24, (BitVec.ofNat 32 (v / 65536)).extractLsb' k 8 = byteAt v (16 + k) := by
    intro k hk
    apply BitVec.eq_of_getLsbD_eq
    intro j hj
    have h32 : k + j < 32 := by omega
    rw [← Nat.shiftRight_eq_div_pow v 16]
    simp only [byteAt, BitVec.getLsbD_extractLsb', BitVec.getLsbD_ofNat, Nat.testBit_shiftRight, hj, h32, Nat.add_assoc, decide_true,
      Bool.true_and]
  simp only [lanes, hlane 0 (by decide), hlane 8 (by decide), hlane 16 (by decide), hlane 24 (by decide)]

/-- A value is determined by its lanes (R43). -/
theorem lanes_injective {v w : Word} (h : lanes v = lanes w) : v = w := by
  simp only [lanes, List.cons.injEq, and_true] at h
  obtain ⟨h0, h8, h16, h24⟩ := h
  rw [← ofLanes_lanes v, ← ofLanes_lanes w, h0, h8, h16, h24]

/-- What `decodeTableWord` answers is what `decode` reads from the six bytes of the number (log 11). -/
theorem decodeTableWord_eq_some {nbits w : Nat} {i : Instr} (h : decodeTableWord nbits w = some i) :
    ∃ rest, decode [byteAt (w % 2 ^ nbits) 0, byteAt (w % 2 ^ nbits) 8, byteAt (w % 2 ^ nbits) 16, byteAt (w % 2 ^ nbits) 24,
      byteAt (w % 2 ^ nbits) 32, byteAt (w % 2 ^ nbits) 40] = .ok (i, rest) := by
  dsimp only [decodeTableWord] at h
  split at h
  · next j rest hdecode => cases h; exact ⟨rest, hdecode⟩
  · cases h

end Sys2Proof

namespace Sys2Proof.Machine

/-- The bus access of an instruction: four bytes at its offset from `BASE`, in its direction, with its write data (R6). -/
def accessOf (p : Params) (i : Instr) : Access :=
  if i.isWrite then .write (p.base + i.offset.toNat) accessBytes i.wdata else .read (p.base + i.offset.toNat) accessBytes

theorem accessOf_read {i : Instr} (h : i.isWrite = false) (p : Params) :
    accessOf p i = .read (p.base + i.offset.toNat) accessBytes := by simp [accessOf, h]

theorem accessOf_write {i : Instr} (h : i.isWrite = true) (p : Params) :
    accessOf p i = .write (p.base + i.offset.toNat) accessBytes i.wdata := by simp [accessOf, h]

/-- The access of an instruction has the instruction's address, size, direction and write data. -/
theorem accessOf_fields (p : Params) (i : Instr) :
    (accessOf p i).addr = p.base + i.offset.toNat ∧ (accessOf p i).size = accessBytes ∧
      (accessOf p i).isWrite = i.isWrite ∧ (accessOf p i).wdata = i.wdata := by
  cases h : i.isWrite with
  | false => rw [accessOf_read h, wdata_of_read h]; exact ⟨rfl, rfl, rfl, rfl⟩
  | true => rw [accessOf_write h]; exact ⟨rfl, rfl, rfl, rfl⟩

/-- The access of a well-formed instruction reaches the block as that instruction (R6, R62). -/
theorem fetchInstr_accessOf {p : Params} {i : Instr} (hwf : i.wf = true) (hbase : p.base % 4 = 0) :
    fetchInstr p (accessOf p i) = .ok i := by
  obtain ⟨haddr, hsize, hdir, hdata⟩ := accessOf_fields p i
  have haligned := offset_aligned hwf
  have hin : i.offset.toNat < windowSize := i.offset.isLt
  have hcommand : (accessOf p i).command p = i.command := by
    rw [Access.command, haddr, hdir, Nat.add_sub_cancel_left, BitVec.ofNat_toNat, BitVec.setWidth_eq, Instr.command]
  refine fetchInstr_ok (by omega) (by omega) hsize (by omega) ?_
  rw [hcommand, hdata]
  exact decodeAccess_command i hwf

/-- A step performs the next access when it reaches the block. -/
theorem step_access {s : State} {a : Access} {rest : List BusEvent} {i : Instr} (hpending : s.pending = .access a :: rest)
    (hfetch : fetchInstr s.params a = .ok i) : step s = exec i (s.setPending rest) := by
  simp only [step, hpending, hfetch]

/-- A step is refused when the next access does not reach the block. -/
theorem step_refused {s : State} {a : Access} {rest : List BusEvent} {r : Refusal} (hpending : s.pending = .access a :: rest)
    (hfetch : fetchInstr s.params a = .error r) : step s = .refused r := by
  simp only [step, hpending, hfetch]

/-- A step applies the next reset. -/
theorem step_reset {s : State} {rest : List BusEvent} (h : s.pending = .reset :: rest) :
    step s = .next (s.setPending rest).applyReset := by
  simp only [step, h]

/-- Settles O8. -/
theorem stepPerformsTheNextAccess : Obligations.StepPerformsTheNextAccess := fun _ _ _ _ => step_access

/-- Settles O9: the access is the instruction's own (`accessOf`). -/
theorem stepRunsTheEncodedAccess : Obligations.StepRunsTheEncodedAccess :=
  fun _ _ _ hwf hbase hpending => step_access hpending (fetchInstr_accessOf hwf hbase)

/-- A number that decodes stands for the bus access of its instruction (log 11): with `W` clear or set, the bits 15:9 of CMD are 0, its
low byte is the offset, and for a write the lanes of WDATA follow. -/
theorem accessOfTableWord_eq {nbits w : Nat} {i : Instr} (h : decodeTableWord nbits w = some i) (p : Params) :
    accessOfTableWord p nbits w = accessOf p i := by
  obtain ⟨rest, hdecode⟩ := decodeTableWord_eq_some h
  generalize hv : w % 2 ^ nbits = v at hdecode
  have hlow : (byteAt v 0).toNat = v % 256 := by rw [toNat_byteAt, pow_zero, Nat.div_one]
  have hhigh : v / 256 % 256 = (byteAt v 8).toNat := (toNat_byteAt v 8).symm
  obtain ⟨lo, hbytes, haccess⟩ | ⟨lo, wdata, hbytes, haccess⟩ := decode_cases hdecode
  · obtain ⟨-, hdir, hoffset, -⟩ := decodeAccess_fields haccess (fun _ => rfl)
    simp only [List.cons.injEq] at hbytes
    obtain ⟨rfl, hW, -⟩ := hbytes
    have hhigh : v / 256 % 256 = 0 := hhigh.trans (congrArg BitVec.toNat hW)
    have hpast : v / 512 % 128 = 0 := by omega
    rw [accessOf_read hdir, hoffset, hlow]
    simp [accessOfTableWord, hv, hpast, show v / 256 % 2 = 0 by omega]
  · obtain ⟨-, hdir, hoffset, hdata⟩ := decodeAccess_fields haccess Bool.noConfusion
    simp only [List.cons.injEq] at hbytes
    obtain ⟨rfl, hW, hlanes⟩ := hbytes
    have hhigh : v / 256 % 256 = 1 := hhigh.trans (congrArg BitVec.toNat hW)
    have hpast : v / 512 % 128 = 0 := by omega
    have hwdata : BitVec.ofNat 32 (v / 65536) = wdata :=
      lanes_injective ((lanes_tableWord v).trans (List.append_inj ((List.append_nil _).trans hlanes) rfl).1)
    rw [accessOf_write hdir, hoffset, hlow, hdata, ← hwdata]
    simp [accessOfTableWord, hv, hpast, show v / 256 % 2 = 1 by omega]

/-- Settles O10: the number that is laid down stands for the access of the instruction it decodes to (`accessOfTableWord_eq`), which
is well-formed (O6). -/
theorem fetchWordRunsTheDecodedInstruction : Obligations.FetchWordRunsTheDecodedInstruction := by
  intro s nbits w i hbase h
  obtain ⟨rest, hdecode⟩ := decodeTableWord_eq_some h
  obtain ⟨hwf, -⟩ := decodedBytesAreTheEncoding _ _ _ hdecode
  have hpending : (s.withFetchWord nbits w).pending = .access (accessOf s.params i) :: s.pending := by
    rw [← accessOfTableWord_eq h]; rfl
  exact step_access hpending (fetchInstr_accessOf hwf hbase)

/-- The command word of an access is aligned when its offset from `BASE` is (R44). -/
theorem command_aligned_iff (p : Params) (a : Access) :
    (a.command p).extractLsb' 0 2 = 0 ↔ (a.addr - p.base) % 4 = 0 := by
  rw [Access.command, commandOf_aligned_iff, BitVec.toNat_ofNat]
  omega

/-- Settles O11: an aligned command word has an instruction, of the direction of the access; the step performs it, it completes (O37)
and touches neither the parameters nor the events to come (O39). -/
theorem windowAccessesComplete : Obligations.WindowAccessesComplete := by
  intro s a rest hpending hbase hlo hhi haligned hsize
  obtain ⟨i, hdecode⟩ := decodeAccess_aligned ((command_aligned_iff s.params a).mpr (by omega)) a.wdata
  have hread : a.isWrite = false → a.wdata = 0 := by cases a <;> simp [Access.isWrite, Access.wdata]
  obtain ⟨-, hdir, -⟩ := decodeAccess_fields hdecode hread
  obtain ⟨t, hexec, hdata⟩ := everyAccessCompletes i (s.setPending rest)
  obtain ⟨hparams, hrest⟩ := exec_keeps_bus hexec
  exact ⟨t, (step_access hpending (fetchInstr_ok hlo hhi hsize haligned hdecode)).trans hexec, hrest, hparams, hdir ▸ hdata⟩

/-- Settles O12: the four tests of `fetchInstr` in their order; the last is that of the command word (O4). -/
theorem accessesOutsideTheRulesAreRefused : Obligations.AccessesOutsideTheRulesAreRefused := by
  intro s a rest hpending inside
  have hin : inside → ¬ (a.addr < s.params.base ∨ s.params.base + windowSize ≤ a.addr) :=
    fun ⟨hlo, hhi⟩ => not_or.mpr ⟨hlo.not_gt, hhi.not_ge⟩
  refine ⟨fun h => ?_, fun h hsize => ?_, fun h hsize haddr => ?_, fun h hsize haddr hoffset => ?_⟩ <;>
    refine step_refused hpending ?_ <;> unfold fetchInstr <;> rw [accessBytes_eq]
  · rw [if_pos (by rw [windowSize_eq]; omega)]
  · rw [if_neg (hin h), if_pos hsize]
  · rw [if_neg (hin h), if_neg (not_not.mpr hsize), if_pos haddr]
  · have hcommand := misalignedCommandsHaveNoInstruction (a.command s.params) a.wdata
      (mt (command_aligned_iff s.params a).mp hoffset)
    rw [if_neg (hin h), if_neg (not_not.mpr hsize), if_neg (not_not.mpr haddr), hcommand]

/-- Settles O13. -/
theorem stepWithoutEventsIdles : Obligations.StepWithoutEventsIdles := by
  intro s h
  simp only [step, h]

end Sys2Proof.Machine
end

section
/-! PROOFS. Reset, and the invariants that every step keeps (10_state.md section 9, 70_reset_and_hazards.md). -/

namespace Sys2Proof.Machine

/-- Settles O14: `State.applyReset` field by field. -/
theorem resetEventRestoresEveryElement : Obligations.ResetEventRestoresEveryElement := by
  intro s rest hpending
  refine ⟨_, step_reset hpending, rfl, rfl, rfl, rfl, rfl, rfl, ?_, ?_, rfl, rfl, rfl, rfl, ?_⟩
  · exact State.applyReset_irq _
  · exact State.applyReset_csN _
  · have hlines : csLines csctrlReset = 0b1111 := by decide
    have hlevel : irqLevel srReset cr2Reset = 0 := by decide
    rw [State.applyReset_trace, hlines, hlevel]; rfl

/-- Settles O15. -/
theorem resetStateHoldsTheTabulatedValues : Obligations.ResetStateHoldsTheTabulatedValues :=
  ⟨rfl, rfl, rfl, rfl, rfl, rfl, rfl, rfl, rfl⟩

/-- Settles O16. -/
theorem resetStateMeetsTheInvariants : Obligations.ResetStateMeetsTheInvariants := by
  unfold Obligations.ResetStateMeetsTheInvariants; decide

/-- Settles O17: the reads return the registers of `State.reset`; RXQ is empty there, so the DR read returns 0 and sets OVR. -/
theorem answersRightAfterReset : Obligations.AnswersRightAfterReset := fun o =>
  ⟨_, _, _, _, _, _, _, _, _, _, exec_rdCr1 _, rfl, exec_rdCr2 _, rfl, exec_rdSr _, rfl, exec_rdCsctrl _, rfl,
    exec_rdDr_empty rfl, rfl, by decide, exec_rdRsvd14 _, rfl, exec_rdRsvd18 o _, rfl, exec_rdRsvd20 o _, rfl,
    exec_rdRsvd40 o _, rfl, exec_rdRsvd80 o _, rfl⟩

/-! What every access keeps. -/

/-- WR_SR keeps the bits outside a mask clear (R91). -/
theorem srAfterWrite_outside {w sr m : Word} (h : sr &&& ~~~m = 0) : srAfterWrite w sr &&& ~~~m = 0 := by
  have hswap : srAfterWrite w sr &&& ~~~m = (sr &&& ~~~m) &&& ~~~(w &&& srW1cMask) := by
    rw [srAfterWrite, BitVec.and_assoc, BitVec.and_comm (~~~_), BitVec.and_assoc]
  rw [hswap, h]; exact BitVec.zero_and

/-- A queue that takes what it has room for stays within its capacity (R27, R104). -/
theorem append_take_room_le {q : List Byte} (h : q.length ≤ fifoDepth) (rs : List Byte) :
    (q ++ rs.take (fifoDepth - q.length)).length ≤ fifoDepth := by
  rw [List.length_append, List.length_take]; omega

/-- An access keeps the registers legal and the queues within their capacity. -/
theorem exec_keeps_legal {i : Instr} {s t : State} (h : exec i s = .next t) (hs : s.Legal) : t.Legal := by
  obtain ⟨hcr1, hcr2, hsr, hcs, htxq, hrxq⟩ := hs
  obtain ⟨-, r, rfl⟩ | ⟨w, -, rfl⟩ | ⟨w, -, rfl⟩ | ⟨w, -, rfl⟩ | ⟨w, -, rfl⟩ | ⟨-, -, rfl⟩ |
    ⟨b, q, -, hbyte, rfl⟩ | ⟨w, -, -, rfl⟩ | ⟨w, rs, -, -, -, -, rfl⟩ := exec_cases h
  · exact ⟨hcr1, hcr2, hsr, hcs, htxq, hrxq⟩ -- a quiet access
  · exact ⟨and_mask_outside w _, hcr2, hsr, hcs, htxq, hrxq⟩ -- WR_CR1
  · exact ⟨hcr1, and_mask_outside w _, hsr, hcs, htxq, hrxq⟩ -- WR_CR2
  · exact ⟨hcr1, hcr2, srAfterWrite_outside hsr, hcs, htxq, hrxq⟩ -- WR_SR
  · exact ⟨hcr1, hcr2, hsr, and_mask_outside w _, htxq, hrxq⟩ -- WR_CSCTRL
  · exact ⟨hcr1, hcr2, clearBit_outside (setBit_outside hsr (by decide)), hcs, htxq, hrxq⟩ -- RD_DR, no byte to take
  · -- RD_DR takes a byte
    refine ⟨hcr1, hcr2, ?_, hcs, htxq, ?_⟩
    · change (if q = [] then clearBit rxne s.sr else s.sr) &&& _ = 0
      split
      · exact clearBit_outside hsr
      · exact hsr
    · rw [hbyte, List.length_cons] at hrxq
      exact (Nat.le_succ _).trans hrxq
  · exact ⟨hcr1, hcr2, setBit_outside hsr (by decide), hcs, htxq, hrxq⟩ -- WR_DR on a full TXQ
  · -- WR_DR that transmits
    exact ⟨hcr1, hcr2, setBit_outside (setBit_outside (clearBit_outside hsr) (by decide)) (by decide), hcs, Nat.zero_le _,
      append_take_room_le hrxq rs⟩

/-- The lines after an access are the function of CSCTRL when they were before: WR_CSCTRL drives them, and no other access
touches either. -/
theorem exec_keeps_lines_agree {i : Instr} {s t : State} (h : exec i s = .next t) (hs : s.csN = csLines s.csctrl) :
    t.csN = csLines t.csctrl := by
  by_cases hi : ∃ w, i = .wrCsctrl w
  · obtain ⟨w, rfl⟩ := hi
    obtain rfl := Host.Outcome.next.inj ((exec_wrCsctrl w s).symm.trans h)
    rfl
  · obtain ⟨hcsctrl, hcsN⟩ := exec_keeps_csctrl_csN h (not_exists.mp hi)
    rw [hcsctrl, hcsN, hs]

/-- An access keeps the facts about access boundaries (R32, R33, R34). -/
theorem exec_keeps_boundary {i : Instr} {s t : State} (h : exec i s = .next t) (hs : s.Boundary) : t.Boundary := by
  obtain ⟨htxq, htxe, hrxne, htxovf⟩ := hs
  obtain ⟨-, r, rfl⟩ | ⟨w, -, rfl⟩ | ⟨w, -, rfl⟩ | ⟨w, -, rfl⟩ | ⟨w, -, rfl⟩ | ⟨-, hempty, rfl⟩ |
    ⟨b, q, -, hbyte, rfl⟩ | ⟨w, -, hfull, rfl⟩ | ⟨w, rs, -, -, hlen, -, rfl⟩ := exec_cases h
  · exact ⟨htxq, htxe, hrxne, htxovf⟩ -- a quiet access
  · exact ⟨htxq, htxe, hrxne, htxovf⟩ -- WR_CR1
  · exact ⟨htxq, htxe, hrxne, htxovf⟩ -- WR_CR2
  · -- WR_SR can only clear OVR and TXOVF
    refine ⟨htxq, (getLsbD_srAfterWrite_of_ne (by decide) (by decide) w s.sr).trans htxe,
      (getLsbD_srAfterWrite_of_ne (by decide) (by decide) w s.sr).trans hrxne, ?_⟩
    rw [State.irqUpdate_sr, State.setRdata_sr, State.setSr_sr, getLsbD_srAfterWrite, htxovf, Bool.false_and]
  · exact ⟨htxq, htxe, hrxne, htxovf⟩ -- WR_CSCTRL
  · -- RD_DR with no byte to take clears RXNE
    exact ⟨htxq, by simpa using htxe, by simp [hempty], by simpa using htxovf⟩
  · -- RD_DR takes a byte: RXNE falls with the last one
    cases q with
    | nil => exact ⟨htxq, by simpa using htxe, by simp, by simpa using htxovf⟩
    | cons c q => exact ⟨htxq, htxe, by simpa [hbyte] using hrxne, htxovf⟩
  · -- TXQ is not full
    rw [htxq] at hfull
    exact absurd (by decide) hfull
  · -- WR_DR that transmits: RXQ has the first reply or was not empty
    have hrxq := append_take_room_pos s.rxq (rs := rs) (by omega)
    refine ⟨rfl, by simp, ?_, ?_⟩
    · simp [hrxq, -List.length_append]
    · simpa using htxovf

/-! Each step keeps each invariant: it is idle, a reset or an access (`step_cases`). -/

/-- An invariant that does not speak of the events to come, that reset establishes from a state that meets it and every access keeps, is
kept by every step. -/
theorem step_keeps {P : State → Prop} (hpending : ∀ s rest, P s → P (s.setPending rest)) (hreset : ∀ s, P s → P s.applyReset)
    (hexec : ∀ i s t, exec i s = .next t → P s → P t) {s t : State} (hs : P s) (h : step s = .next t) : P t := by
  obtain ⟨-, rfl⟩ | ⟨rest, -, rfl⟩ | ⟨a, rest, i, -, -, hi⟩ := step_cases h
  · exact hs
  · exact hreset _ (hpending s rest hs)
  · exact hexec i _ t hi (hpending s rest hs)

/-- Reset leaves the registers legal (R36). -/
theorem applyReset_legal (s : State) : s.applyReset.Legal := by
  obtain ⟨⟨hcr1, -, hsr, hcsctrl, htxq, hrxq⟩, -⟩ := resetStateMeetsTheInvariants
  exact ⟨hcr1, BitVec.zero_and, hsr, hcsctrl, htxq, hrxq⟩

/-- Reset leaves the facts about access boundaries (R36). -/
theorem applyReset_boundary (s : State) : s.applyReset.Boundary := by
  obtain ⟨-, -, hboundary⟩ := resetStateMeetsTheInvariants
  exact hboundary

/-- Settles O50. -/
theorem stepKeepsRegistersLegal : Obligations.StepKeepsRegistersLegal := fun _ _ =>
  step_keeps (P := State.Legal) (fun _ _ hs => hs) (fun s _ => applyReset_legal s) (fun _ _ _ => exec_keeps_legal)

/-- Settles O51. -/
theorem stepKeepsOutputsAgreeing : Obligations.StepKeepsOutputsAgreeing := fun _ _ =>
  step_keeps (P := State.OutputsAgree) (fun _ _ hs => hs) (fun _ _ => ⟨rfl, rfl⟩)
    (fun _ _ _ h ⟨_, hlines⟩ => ⟨exec_irq h, exec_keeps_lines_agree h hlines⟩)

/-- Settles O52. -/
theorem stepKeepsBoundary : Obligations.StepKeepsBoundary := fun _ _ =>
  step_keeps (P := State.Boundary) (fun _ _ hs => hs) (fun s _ => applyReset_boundary s) (fun _ _ _ => exec_keeps_boundary)

/-- Settles O53, by induction on the run: reset meets the invariants under any parameters, and each step keeps each of them. -/
theorem reachableStatesMeetTheInvariants : Obligations.ReachableStatesMeetTheInvariants := by
  intro s hs
  induction hs with
  | boot p events replies =>
    obtain ⟨⟨hcr1, -, hsr, hcsctrl, htxq, hrxq⟩, hagree, hboundary⟩ := resetStateMeetsTheInvariants
    exact ⟨hboundary, ⟨hcr1, BitVec.zero_and, hsr, hcsctrl, htxq, hrxq⟩, hagree⟩
  | step _ hstep ih =>
    obtain ⟨hboundary, hlegal, hagree⟩ := ih
    exact ⟨stepKeepsBoundary _ _ hboundary hstep, stepKeepsRegistersLegal _ _ hlegal hstep,
      stepKeepsOutputsAgreeing _ _ hagree hstep⟩

end Sys2Proof.Machine
end

section
/-! PROOFS. Single accesses: the writes of the control registers, DR and the reserved offsets, and what reads back. -/

namespace Sys2Proof.Machine

/-- Settles O19: from the state with the new CR1, the end of a write drives the level and changes nothing else. -/
theorem writeCr1StoresTheMaskedValue : Obligations.WriteCr1StoresTheMaskedValue := by
  intro w s
  obtain ⟨⟨-, hcr2, hsr, hcsctrl⟩, hqueues, hbus, hdriven, hkept⟩ := setRdata_irqUpdate_frame (s.setCr1 (cr1Operand w)) none
  exact ⟨_, exec_wrCr1 w s, rfl, rfl, hcr2, hsr, hcsctrl, hqueues, hbus, hdriven, hkept⟩

theorem cr2Operand_wide {p : Params} (h : p.cr2Mask = .wide) (w : Word) : cr2Operand p w = w &&& 0xF0 := by
  rw [cr2Operand, h, cr2Wmask_wide]

theorem cr2Operand_narrow {p : Params} (h : p.cr2Mask = .narrow) (w : Word) : cr2Operand p w = w &&& 0x40 := by
  rw [cr2Operand, h, cr2Wmask_narrow]

/-- Settles O21: the stored value for each mask of D1; the level is the function of SR and the new CR2. -/
theorem writeCr2StoresTheMaskedValue : Obligations.WriteCr2StoresTheMaskedValue := by
  intro w s
  refine ⟨_, exec_wrCr2 w s, ?_, rfl, rfl, rfl, rfl, ⟨rfl, rfl⟩, ⟨rfl, rfl⟩, ⟨rfl, rfl, rfl, rfl⟩⟩
  cases hmask : s.params.cr2Mask with
  | wide => exact cr2Operand_wide hmask w
  | narrow => exact cr2Operand_narrow hmask w

/-- Settles O25: everything is that of `exec_wrDr_room_spec`, with SR read bit by bit. -/
theorem writeDrTransmitsTheQueueAndTheByte : Obligations.WriteDrTransmitsTheQueueAndTheByte := by
  intro w s hroom
  obtain ⟨rs, hlen, htake, hexec⟩ := exec_wrDr_room_spec hroom w
  rw [drOperand_eq] at hexec
  refine ⟨_, rs, hexec, hlen, hlen ▸ htake, by rw [hlen], rfl, rfl, by simp, by simp, fun k hk => ?_, rfl, rfl, rfl, rfl, rfl,
    ⟨rfl, rfl⟩, rfl, rfl⟩
  simp [show k ≠ 0 by omega, show k ≠ 1 by omega]

/-- Settles O26: a full TXQ has no room, so WR_DR only sets TXOVF and drives the level. -/
theorem writeDrToAFullQueueLatchesTxovf : Obligations.WriteDrToAFullQueueLatchesTxovf := by
  intro w s hfull
  exact ⟨_, exec_wrDr_full hfull.not_gt w, by simp, fun k hk => by simp [hk], rfl, rfl, rfl, rfl, ⟨rfl, rfl⟩, ⟨rfl, rfl⟩,
    ⟨rfl, rfl, rfl, rfl⟩⟩

/-- Settles O29: each of the five rows lays down 0 as read data and ends the access. -/
theorem reservedReadsReturnZero : Obligations.ReservedReadsReturnZero := by
  rintro s o i (rfl | rfl | rfl | rfl | rfl) <;> exact ⟨_, rfl, rfl, setRdata_irqUpdate_frame s (some 0)⟩

/-- Settles O30: each of the five rows discards the write data and ends the access. -/
theorem reservedWritesHaveNoEffect : Obligations.ReservedWritesHaveNoEffect := by
  rintro s o w i (rfl | rfl | rfl | rfl | rfl) <;> exact ⟨_, rfl, rfl, setRdata_irqUpdate_frame s none⟩

/-- Settles O49: the write of a register and its read, row by row; the mask of CR2 is the parameter's. -/
theorem writtenRegistersReadBack : Obligations.WrittenRegistersReadBack := by
  intro s o w
  refine ⟨⟨_, _, exec_wrCr1 w s, exec_rdCr1 _, rfl⟩, ⟨_, _, exec_wrCr2 w s, exec_rdCr2 _, ?_⟩,
    ⟨_, _, exec_wrCsctrl w s, exec_rdCsctrl _, rfl⟩, ⟨_, _, exec_wrRsvd14 w s, exec_rdRsvd14 _, rfl⟩,
    ⟨_, _, exec_wrRsvd18 o w s, exec_rdRsvd18 o _, rfl⟩, ⟨_, _, exec_wrRsvd20 o w s, exec_rdRsvd20 o _, rfl⟩,
    ⟨_, _, exec_wrRsvd40 o w s, exec_rdRsvd40 o _, rfl⟩, ⟨_, _, exec_wrRsvd80 o w s, exec_rdRsvd80 o _, rfl⟩⟩
  cases hmask : s.params.cr2Mask with
  | wide => exact congrArg some (cr2Operand_wide hmask w)
  | narrow => exact congrArg some (cr2Operand_narrow hmask w)

end Sys2Proof.Machine
end

section
/-! PROOFS. Rules of the whole machine: the interrupt level (60_exceptions.md, R180), the order of effects (R51),
repeated writes (R48), a full TXQ (R188). -/

namespace Sys2Proof.Machine

/-- Settles O42: the access completes (O37); of the accesses only WR_DR could change TXQ or transmit (O39), and on a full TXQ it does
neither. -/
theorem fullTransmitQueueIsADeadEnd : Obligations.FullTransmitQueueIsADeadEnd := by
  intro i s hfull
  by_cases hi : ∃ w, i = .wrDr w
  · obtain ⟨w, rfl⟩ := hi
    exact ⟨_, exec_wrDr_full hfull.not_gt w, rfl, by simp⟩
  · obtain ⟨t, hexec, -⟩ := everyAccessCompletes i s
    exact ⟨t, hexec, exec_keeps_txq_sent hexec (not_exists.mp hi)⟩

/-- Settles O43: the level is the function of SR and CR2 before and after (`exec_irq`), and any other access changes neither register
(O39). -/
theorem levelChangesOnlyByFourAccesses : Obligations.LevelChangesOnlyByFourAccesses := by
  intro i s t hexec hagree hchanged
  by_contra hother
  obtain ⟨hrdDr, hwrites⟩ := not_or.mp hother
  have hi : ∀ w, i ≠ .wrCr2 w ∧ i ≠ .wrSr w ∧ i ≠ .wrDr w := fun w =>
    ⟨fun h => hwrites ⟨w, .inl h⟩, fun h => hwrites ⟨w, .inr (.inl h)⟩, fun h => hwrites ⟨w, .inr (.inr h)⟩⟩
  have hsr := exec_keeps_sr hexec hrdDr fun w => (hi w).2
  have hcr2 := exec_keeps_cr2 hexec fun w => (hi w).1
  exact hchanged (by rw [exec_irq hexec, hsr, hcr2, hagree])

/-! When each level does not occur (R151). -/

theorem irqLevel_ne_three {sr cr2 : Word} (h : ((sr.getLsbD 2 || sr.getLsbD 3) && cr2.getLsbD 5) = false) :
    irqLevel sr cr2 ≠ 3 := by
  simp only [irqLevelFollowsTheTable sr cr2, h, Bool.false_eq_true, if_false]
  split_ifs <;> decide

theorem irqLevel_ne_two {sr cr2 : Word} (h : (sr.getLsbD 0 && cr2.getLsbD 6) = false) : irqLevel sr cr2 ≠ 2 := by
  simp only [irqLevelFollowsTheTable sr cr2, h, Bool.false_eq_true, if_false]
  split_ifs <;> decide

theorem irqLevel_ne_one {sr cr2 : Word} (h : (sr.getLsbD 1 && cr2.getLsbD 7) = false) : irqLevel sr cr2 ≠ 1 := by
  simp only [irqLevelFollowsTheTable sr cr2, h, Bool.false_eq_true, if_false]
  split_ifs <;> decide

theorem irqLevel_ne_zero {sr cr2 : Word} (h : (sr.getLsbD 1 && cr2.getLsbD 7) = true) : irqLevel sr cr2 ≠ 0 := by
  simp only [irqLevelFollowsTheTable sr cr2, h, if_true]
  split_ifs <;> decide

/-- A bit outside a mask is clear in a word that has no bit outside it. -/
theorem getLsbD_of_outside {w m : Word} (h : w &&& ~~~m = 0) {k : Nat} (hk : k < 32) (hm : m.getLsbD k = false) :
    w.getLsbD k = false := by
  have hbit : (w &&& ~~~m).getLsbD k = false := by rw [h]; exact BitVec.getLsbD_zero
  rw [BitVec.getLsbD_and, BitVec.getLsbD_not, hm] at hbit
  simpa [hk] using hbit

/-- Settles O44: the mask 0x40 holds neither the error nor the transmit enable; under 0xF0 a state for each level, by its enable alone and
its flag. -/
theorem maskDecidesWhichLevelsOccur : Obligations.MaskDecidesWhichLevelsOccur := by
  refine ⟨fun s ⟨_, hcr2, _⟩ ⟨hagree, _⟩ hmask => ?_, fun l => ?_⟩
  · rw [hmask, cr2Wmask_narrow] at hcr2
    have herror : s.cr2.getLsbD 5 = false := getLsbD_of_outside hcr2 (by decide) (by decide)
    have htransmit : s.cr2.getLsbD 7 = false := getLsbD_of_outside hcr2 (by decide) (by decide)
    have h3 : s.irq ≠ 3 := hagree ▸ irqLevel_ne_three (by rw [herror, Bool.and_false])
    have h1 : s.irq ≠ 1 := hagree ▸ irqLevel_ne_one (by rw [htransmit, Bool.and_false])
    generalize s.irq = l at h3 h1
    revert l; decide
  · obtain rfl | rfl | rfl | rfl : l = 0 ∨ l = 1 ∨ l = 2 ∨ l = 3 := by revert l; decide
    · exact ⟨State.reset, by decide⟩
    · exact ⟨{ State.reset with cr2 := 0x80, irq := 1 }, by decide⟩
    · exact ⟨{ State.reset with cr2 := 0x40, sr := 3, rxq := [0x5A], irq := 2 }, by decide⟩
    · exact ⟨{ State.reset with cr2 := 0x20, sr := 6, irq := 3 }, by decide⟩

/-- A bit that is clear in the write data of CR2 is clear in CR2 (R83). -/
theorem getLsbD_cr2Operand {w : Word} {k : Nat} (h : w.getLsbD k = false) (p : Params) :
    (cr2Operand p w).getLsbD k = false := by
  rw [cr2Operand, BitVec.getLsbD_and, h, Bool.false_and]

/-- Settles O45: each access clears the flags or the enable of its level. -/
theorem levelsAreRemovedByTheirAccesses : Obligations.LevelsAreRemovedByTheirAccesses := by
  refine fun s => ⟨fun w hovr htxovf => ⟨_, exec_wrSr w s, irqLevel_ne_three ?_⟩, fun hrxq => ?_,
    fun w hw => ⟨_, exec_wrCr2 w s, irqLevel_ne_one ?_⟩, fun w hw => ⟨_, exec_wrCr2 w s, irqLevel_ne_two ?_⟩,
    fun w hw => ⟨_, exec_wrCr2 w s, irqLevel_ne_three ?_⟩⟩
  · simp [getElem_srAfterWrite, hovr, htxovf]
  · -- with at most one byte in RXQ, RD_DR clears RXNE
    match hr : s.rxq, hrxq with
    | [], _ => exact ⟨_, exec_rdDr_empty hr, irqLevel_ne_two (by simp)⟩
    | [b], _ => exact ⟨_, exec_rdDr_byte hr, irqLevel_ne_two (by simp)⟩
  all_goals exact Bool.and_eq_false_imp.mpr fun _ => getLsbD_cr2Operand hw s.params

/-- Settles O46: the facts about access boundaries are kept, TXE among them, and so is CR2 (O39). -/
theorem transmitEmptyLevelStays : Obligations.TransmitEmptyLevelStays := by
  intro i s t hboundary htxeie hi hexec
  obtain ⟨htxq, htxe, hflags⟩ := exec_keeps_boundary hexec hboundary
  have hcr2 : t.cr2.getLsbD 7 = true := exec_keeps_cr2 hexec hi ▸ htxeie
  exact ⟨exec_irq hexec ▸ irqLevel_ne_zero (by rw [htxe, hcr2, Bool.and_self]), hcr2, htxq, htxe, hflags⟩

/-- Settles O47: what each access adds to the trace before the level, by the cases of what it can do. -/
theorem effectsOfAnAccessAreOrdered : Obligations.EffectsOfAnAccessAreOrdered := by
  intro i s t hexec
  obtain ⟨hquiet, r, rfl⟩ | ⟨w, rfl, rfl⟩ | ⟨w, rfl, rfl⟩ | ⟨w, rfl, rfl⟩ | ⟨w, rfl, rfl⟩ | ⟨rfl, -, rfl⟩ |
    ⟨b, q, rfl, -, rfl⟩ | ⟨w, rfl, hfull, rfl⟩ | ⟨w, rs, rfl, hroom, hlen, -, rfl⟩ := exec_cases hexec
  · -- a quiet access: the six accesses that write something are none
    refine ⟨[], by simp, ?_⟩
    cases i
    case wrCr1 | wrCr2 | wrSr | rdDr | wrDr | wrCsctrl => cases hquiet
    all_goals rfl
  · exact ⟨[], by simp, rfl⟩ -- WR_CR1
  · exact ⟨[], by simp, rfl⟩ -- WR_CR2
  · exact ⟨[], by simp, rfl⟩ -- WR_SR
  · exact ⟨csEvents s.csN (csLines (csctrlOperand w)), by simp, rfl⟩ -- WR_CSCTRL
  · exact ⟨[], by simp, rfl⟩ -- RD_DR with no byte to take
  · exact ⟨[], by simp, rfl⟩ -- RD_DR takes a byte
  · -- WR_DR on a full TXQ
    have hge : ¬ s.txq.length < 8 := hfull
    exact ⟨[], by simp, by dsimp only; rw [if_neg hge]⟩
  · -- WR_DR that transmits
    have hlt : s.txq.length < 8 := hroom
    exact ⟨_, rfl, by dsimp only; rw [if_pos hlt]; exact ⟨rs, hlen, by rw [drOperand_eq]⟩⟩

/-! Driving an output that already has its level is no change (R120 property c, R150). -/

/-- A write access that stores nothing new, right after a write access, changes nothing. -/
theorem endWrite_of_ended (u : State) : (u.setRdata none).irqUpdate.endWrite = .next (u.setRdata none).irqUpdate := by
  simp [State.endWrite, State.irqUpdate, State.setRdata]

theorem csUpdate_of_agree {s : State} (h : s.csN = csLines s.csctrl) : s.csUpdate = s := by
  cases s
  simp_all [State.csUpdate]

theorem srAfterWrite_idem (w sr : Word) : srAfterWrite w (srAfterWrite w sr) = srAfterWrite w sr := by
  rw [srAfterWrite, srAfterWrite, BitVec.and_assoc, BitVec.and_self]

/-- WR_DR with room in TXQ hands over the queued bytes and then the written one, and leaves TXQ empty (R105). -/
theorem exec_wrDr_sends {s : State} (hroom : s.txq.length < fifoDepth) (w : Word) :
    ∃ t, exec (.wrDr w) s = .next t ∧ t.txq = [] ∧
      sentBytes t.trace = sentBytes s.trace ++ s.txq ++ [w.extractLsb' 0 8] := by
  obtain ⟨rs, hlen, -, hexec⟩ := exec_wrDr_room_spec hroom w
  have hsent := sentBytes_zipWith (s.txq ++ [w.extractLsb' 0 8]) rs (by simpa using hlen)
  refine ⟨_, hexec, rfl, ?_⟩
  simp only [sentBytes_append, sentBytes_irqEvents, List.append_nil, hsent, drOperand_eq, List.append_assoc]

/-- Settles O48. The second write stores the value that is already there, and drives outputs that already have their levels; the second
WR_DR finds TXQ empty and transmits its byte. -/
theorem repeatedWritesAreIdempotentExceptDr : Obligations.RepeatedWritesAreIdempotentExceptDr := by
  intro s o w
  refine ⟨?_, fun hroom => ?_⟩
  · rintro i (rfl | rfl | rfl | rfl | rfl | rfl | rfl | rfl | rfl)
    · exact ⟨_, exec_wrCr1 w s, endWrite_of_ended (s.setCr1 (cr1Operand w))⟩
    · exact ⟨_, exec_wrCr2 w s, endWrite_of_ended (s.setCr2 (cr2Operand s.params w))⟩
    · -- SR: the flags that the write clears are clear already
      refine ⟨_, exec_wrSr w s, ?_⟩
      have hsame := congrArg ((s.setSr (srAfterWrite w s.sr)).setRdata none).irqUpdate.setSr (srAfterWrite_idem w s.sr)
      exact (congrArg State.endWrite hsame).trans (endWrite_of_ended _)
    · -- CSCTRL: the lines have their levels already
      refine ⟨_, exec_wrCsctrl w s, ?_⟩
      have hsame := csUpdate_of_agree (s := ((s.setCsctrl (csctrlOperand w)).csUpdate.setRdata none).irqUpdate) rfl
      exact (congrArg State.endWrite hsame).trans (endWrite_of_ended _)
    all_goals exact ⟨_, rfl, endWrite_of_ended s⟩
  · obtain ⟨t, hfirst, htxq, -⟩ := exec_wrDr_sends hroom w
    obtain ⟨u, hsecond, -, hsent⟩ := exec_wrDr_sends (s := t) (by rw [htxq]; decide) w
    exact ⟨t, u, hfirst, hsecond, by rw [hsent, htxq, List.append_nil]⟩

end Sys2Proof.Machine
end

section
/-! PROOFS. What gates nothing (D8, D14): an access from a state with another CR1, CSCTRL and lines. -/

namespace Sys2Proof.Machine

/-- `s` with another CR1, another CSCTRL and other lines: what no access to DR looks at. -/
def State.withControls (s : State) (cr1 csctrl : Word) (csN : BitVec 4) : State :=
  { s with cr1 := cr1, csctrl := csctrl, csN := csN }

section
variable (s : State) (c1 cs : Word) (l : BitVec 4)

/-- The drain loop does the same whatever the three hold: a reply depends on the replies laid down and on what was seen (log 3). -/
theorem drain_withControls (q : List Byte) :
    State.drain q (s.withControls c1 cs l) = (State.drain q s).withControls c1 cs l := by
  induction q generalizing s with
  | nil => rfl
  | cons b q ih =>
    have hturn : ((s.withControls c1 cs l).setTxq q).exchange b = ((s.setTxq q).exchange b).withControls c1 cs l := by
      rw [exchange_eq, exchange_eq]; rfl
    rw [State.drain, hturn, ih, State.drain]

theorem markTxe_withControls : (s.withControls c1 cs l).markTxe = s.markTxe.withControls c1 cs l :=
  (apply_ite (State.withControls · c1 cs l) (s.txq.length = 0) (s.setSr (setBit txe s.sr)) s).symm

theorem markRxne_withControls : (s.withControls c1 cs l).markRxne = s.markRxne.withControls c1 cs l :=
  (apply_ite (State.withControls · c1 cs l) (0 < s.rxq.length) (s.setSr (setBit rxne s.sr)) (s.setSr (clearBit rxne s.sr))).symm

theorem flush_withControls : (s.withControls c1 cs l).flush = s.flush.withControls c1 cs l := by
  rw [State.flush, State.flush, ← markRxne_withControls, ← markTxe_withControls, ← drain_withControls]
  rfl

end

/-- An access to DR does the same whatever CR1, CSCTRL and the lines hold. -/
theorem exec_dr_withControls {i : Instr} (hi : i = .rdDr ∨ ∃ w, i = .wrDr w) {s t : State} (h : exec i s = .next t)
    (c1 cs : Word) (l : BitVec 4) : exec i (s.withControls c1 cs l) = .next (t.withControls c1 cs l) := by
  obtain rfl | ⟨w, rfl⟩ := hi
  · cases hrxq : s.rxq with
    | nil =>
      obtain rfl := Host.Outcome.next.inj ((exec_rdDr_empty hrxq).symm.trans h)
      exact exec_rdDr_empty (s := s.withControls c1 cs l) hrxq
    | cons b q =>
      obtain rfl := Host.Outcome.next.inj ((exec_rdDr_byte hrxq).symm.trans h)
      exact exec_rdDr_byte (s := s.withControls c1 cs l) hrxq
  · by_cases hroom : s.txq.length < fifoDepth
    · obtain rfl := Host.Outcome.next.inj ((exec_wrDr_room hroom w).symm.trans h)
      have hflush := flush_withControls ((s.setTxq (s.txq ++ [drOperand w])).setSr (clearBit txe s.sr)) c1 cs l
      exact (exec_wrDr_room (s := s.withControls c1 cs l) hroom w).trans
        (congrArg (fun u : State => Host.Outcome.next (u.setRdata none).irqUpdate) hflush)
    · obtain rfl := Host.Outcome.next.inj ((exec_wrDr_full hroom w).symm.trans h)
      exact exec_wrDr_full (s := s.withControls c1 cs l) hroom w

/-- Settles O41: CR1, which the access keeps (O39), is left as it is. -/
theorem chipSelectsGateNoTransfer : Obligations.ChipSelectsGateNoTransfer := by
  intro i s t c l hi h
  have hcr1 : t.cr1 = s.cr1 := exec_keeps_cr1 h (by rintro w rfl; simp at hi)
  have ht : t.withControls s.cr1 c l = { t with csctrl := c, csN := l } := by rw [← hcr1]; rfl
  exact (exec_dr_withControls hi h s.cr1 c l).trans (congrArg _ ht)

/-- Settles O40: a DR access by `exec_dr_withControls`, where CSCTRL and the lines, which it keeps (O39), are left as they are; any
other access but the two to CR1 does not look at CR1. -/
theorem cr1GatesNothing : Obligations.Cr1GatesNothing := by
  intro i s t v hrd hwr h
  by_cases hi : i = .rdDr ∨ ∃ w, i = .wrDr w
  · obtain ⟨hcsctrl, hcsN⟩ := exec_keeps_csctrl_csN h (by rintro w rfl; simp at hi)
    have ht : t.withControls v s.csctrl s.csN = { t with cr1 := v } := by rw [← hcsctrl, ← hcsN]; rfl
    exact (exec_dr_withControls hi h v s.csctrl s.csN).trans (congrArg _ ht)
  · cases i
    case rdCr1 => exact absurd rfl hrd
    case wrCr1 w => exact absurd rfl (hwr w)
    case rdDr => exact absurd (.inl rfl) hi
    case wrDr w => exact absurd (.inr ⟨w, rfl⟩) hi
    all_goals
      obtain rfl := Host.Outcome.next.inj h
      rfl

end Sys2Proof.Machine
end

section
/-! PROOFS. Bytes exchanged by pairs (R107): a row of writes to DR, and a row of reads after it. -/

namespace Sys2Proof.Machine

/-- The bus event of a write to DR, and that of a read of it. -/
def drWrite (p : Params) (w : Word) : BusEvent := .access (.write (p.base + 0x0C) 4 w)
def drRead (p : Params) : BusEvent := .access (.read (p.base + 0x0C) 4)

/-- What accesses to DR that latch no flag keep from `s` to `t`, and the bytes that they hand over. -/
structure DrExchange (sent : List Byte) (s t : State) : Prop where
  txq    : t.txq = s.txq
  params : t.params = s.params
  ovr    : t.sr.getLsbD 2 = s.sr.getLsbD 2
  txovf  : t.sr.getLsbD 3 = s.sr.getLsbD 3
  sent   : sentBytes t.trace = sentBytes s.trace ++ sent

theorem DrExchange.refl (s : State) : DrExchange [] s s := ⟨rfl, rfl, rfl, rfl, (List.append_nil _).symm⟩

theorem DrExchange.trans {a b : List Byte} {s t u : State} (h : DrExchange a s t) (h' : DrExchange b t u) :
    DrExchange (a ++ b) s u :=
  ⟨h'.txq.trans h.txq, h'.params.trans h.params, h'.ovr.trans h.ovr, h'.txovf.trans h.txovf,
    by rw [h'.sent, h.sent, List.append_assoc]⟩

/-- A write to DR with TXQ empty and room in RXQ hands its byte over and queues the reply (R105). -/
theorem step_drWrite {s : State} {w : Word} {r : Byte} {more : List Byte} {rest : List BusEvent}
    (hbase : s.params.base % 4 = 0) (htxq : s.txq = []) (hroom : s.rxq.length < 8) (hreplies : s.replies = r :: more)
    (hpending : s.pending = drWrite s.params w :: rest) :
    ∃ t, step s = .next t ∧ DrExchange [w.extractLsb' 0 8] s t ∧ t.rxq = s.rxq ++ [r] ∧ t.replies = more ∧ t.pending = rest := by
  have hstep : step s = exec (.wrDr w) (s.setPending rest) := stepRunsTheEncodedAccess s (.wrDr w) rest rfl hbase hpending
  obtain ⟨rs, hlen, htake, hexec⟩ := exec_wrDr_room_spec (s := s.setPending rest) (by simp [htxq]) w
  obtain ⟨r', rfl⟩ : ∃ r', rs = [r'] := List.length_eq_one_iff.mp (by simpa [htxq] using hlen)
  obtain rfl : r' = r := by simpa [htxq, hreplies] using htake
  obtain ⟨m, hm⟩ : ∃ m, fifoDepth - s.rxq.length = m + 1 := ⟨7 - s.rxq.length, by rw [fifoDepth_eq]; omega⟩
  refine ⟨_, hstep.trans hexec, ⟨htxq.symm, rfl, by simp, by simp, ?_⟩, ?_, ?_, rfl⟩
  · simp [htxq, sentBytes]
  · simp [hm]
  · simp [htxq, hreplies]

/-- A read of DR takes the oldest byte of RXQ and latches no flag (R106). -/
theorem step_drRead {s : State} {b : Byte} {q : List Byte} {rest : List BusEvent} (hbase : s.params.base % 4 = 0)
    (hrxq : s.rxq = b :: q) (hpending : s.pending = drRead s.params :: rest) :
    ∃ t, step s = .next t ∧ DrExchange [] s t ∧ t.rxq = q ∧ t.rdata = some (b.setWidth 32) ∧ t.replies = s.replies ∧
      t.pending = rest := by
  have hstep : step s = exec .rdDr (s.setPending rest) := stepRunsTheEncodedAccess s .rdDr rest rfl hbase hpending
  obtain ⟨-, hreads⟩ := readDrTakesTheOldestByteOrLatchesOvr
  obtain ⟨hbyte, -⟩ := hreads (s.setPending rest)
  obtain ⟨t, hexec, hdata, hq, -, hsr, htxq, -, -, -, ⟨hparams, hrest⟩, -, hreplies, -, htrace⟩ := hbyte b q hrxq
  refine ⟨t, hstep.trans hexec, ⟨htxq, hparams, hsr 2 (by decide), hsr 3 (by decide), ?_⟩, hq, hdata, hreplies, hrest⟩
  simp [htrace]

/-- A row of writes to DR hands its bytes over in order and queues the replies in order, while RXQ has room. -/
theorem run_drWrites (ws : List Word) {s : State} {rs more : List Byte} {rest : List BusEvent}
    (hbase : s.params.base % 4 = 0) (htxq : s.txq = []) (hlen : ws.length = rs.length)
    (hroom : s.rxq.length + rs.length ≤ 8) (hreplies : s.replies = rs ++ more)
    (hpending : s.pending = ws.map (drWrite s.params) ++ rest) :
    ∃ t, Sys2Proof.core.run ws.length s = .next t ∧ DrExchange (ws.map (·.extractLsb' 0 8)) s t ∧ t.rxq = s.rxq ++ rs ∧
      t.replies = more ∧ t.pending = rest := by
  induction ws generalizing s rs with
  | nil =>
    obtain rfl := List.eq_nil_of_length_eq_zero hlen.symm
    exact ⟨s, rfl, .refl s, (List.append_nil _).symm, hreplies, hpending⟩
  | cons w ws ih =>
    obtain ⟨r, rs, rfl⟩ := List.exists_cons_of_length_pos (l := rs) (by rw [← hlen]; exact Nat.succ_pos _)
    rw [List.length_cons] at hroom
    obtain ⟨t, hstep, hexchange, hrxq, hreplies', hpending'⟩ :=
      step_drWrite hbase htxq (by omega) hreplies hpending
    rw [← hexchange.params] at hbase hpending'
    obtain ⟨u, hrun, hexchange', hrxq', hmore, hrest⟩ :=
      ih hbase (hexchange.txq.trans htxq) (Nat.succ.inj hlen) (by rw [hrxq, List.length_append, List.length_singleton]; omega)
        hreplies' hpending'
    exact ⟨u, (run_next hstep ws.length).trans hrun, hexchange.trans hexchange', by rw [hrxq', hrxq, List.append_assoc]; rfl,
      hmore, hrest⟩

/-- After a row of `k + 1` reads of DR, the read data is byte `k` of RXQ, and the later bytes are left. -/
theorem run_drReads (k : Nat) {s : State} {b : Byte} {rest : List BusEvent} (hbase : s.params.base % 4 = 0)
    (hbyte : s.rxq[k]? = some b) (hpending : s.pending = List.replicate (k + 1) (drRead s.params) ++ rest) :
    ∃ t, Sys2Proof.core.run (k + 1) s = .next t ∧ DrExchange [] s t ∧ t.rxq = s.rxq.drop (k + 1) ∧
      t.rdata = some (b.setWidth 32) ∧ t.replies = s.replies ∧ t.pending = rest := by
  induction k generalizing s with
  | zero =>
    obtain ⟨c, q, hrxq⟩ : ∃ c q, s.rxq = c :: q := List.exists_cons_of_ne_nil (by rintro h; simp [h] at hbyte)
    obtain rfl : c = b := by simpa [hrxq] using hbyte
    obtain ⟨t, hstep, hexchange, hq, hdata, hreplies, hrest⟩ := step_drRead hbase hrxq hpending
    exact ⟨t, run_next hstep 0, hexchange, by rw [hq, hrxq]; rfl, hdata, hreplies, hrest⟩
  | succ k ih =>
    obtain ⟨c, q, hrxq⟩ : ∃ c q, s.rxq = c :: q := List.exists_cons_of_ne_nil (by rintro h; simp [h] at hbyte)
    obtain ⟨t, hstep, hexchange, hq, -, hreplies, hpending'⟩ := step_drRead hbase hrxq hpending
    rw [← hexchange.params] at hbase hpending'
    rw [hrxq, List.getElem?_cons_succ, ← hq] at hbyte
    obtain ⟨u, hrun, hexchange', hleft, hdata, hreplies', hrest⟩ := ih hbase hbyte hpending'
    exact ⟨u, (run_next hstep (k + 1)).trans hrun, hexchange.trans hexchange', by rw [hleft, hq, hrxq]; rfl, hdata,
      hreplies'.trans hreplies, hrest⟩

/-- Settles O54: the row of writes fills RXQ with the replies (`run_drWrites`), and the row of reads takes them from it
(`run_drReads`). -/
theorem repliesComeBackInWriteOrder : Obligations.RepliesComeBackInWriteOrder := by
  rintro s ws rs more events k r ⟨htxq, -⟩ hrxq hbase hlen hfit hreplies hreply hpending
  obtain ⟨t, hwrites, hexchange, hfilled, hmore, hreads⟩ :=
    run_drWrites ws hbase htxq hlen (by simpa [hrxq] using hfit) hreplies (hpending.trans (List.append_assoc _ _ _))
  rw [hrxq, List.nil_append] at hfilled
  rw [← hexchange.params] at hbase hreads
  rw [← hfilled] at hreply
  obtain ⟨u, hrun, hexchange', hleft, hdata, hreplies', hrest⟩ :=
    run_drReads k hbase hreply hreads
  obtain ⟨-, -, hovr, htxovf, hsent⟩ := hexchange.trans hexchange'
  exact ⟨u, (run_add Sys2Proof.core hwrites (k + 1)).trans hrun, hdata, hfilled ▸ hleft, hovr, htxovf, hrest,
    hreplies'.trans hmore, by rw [hsent, List.append_nil]⟩

end Sys2Proof.Machine
end
